-- ==== Sys2Proof/Word.lean ====
section
/-! DEFINITION. The word types of the block and the plain records its cells hold: a byte of an RTC
register (R34), the 32-bit command word (R55), the 17-bit serial frame (R52), six like things (R12,
R16, R28), a Time (R10), a Date (R119), a display buffer entry (R12), and the four agents (R4). -/

namespace Sys2Proof

/-- One byte of an RTC register, or one 8-bit bus address (R34, R35). -/
abbrev Byte := BitVec 8

/-- One 32-bit command word (R55). -/
abbrev Command := BitVec 32

/-- One digit's 17-bit serial frame, and the driver chip's shift stages and latch (R15, R52). -/
abbrev Frame := BitVec 17

/-- Six like things, numbered 0 to 5: the digits (R12, R16) or the LED channels (R28). -/
structure Six (α : Type) where
  d0 : α
  d1 : α
  d2 : α
  d3 : α
  d4 : α
  d5 : α
  deriving DecidableEq, Repr, Inhabited

/-- The entry numbered `k`. -/
def Six.get {α : Type} (v : Six α) (k : Fin 6) : α :=
  match k.val with
  | 0 => v.d0
  | 1 => v.d1
  | 2 => v.d2
  | 3 => v.d3
  | 4 => v.d4
  | _ => v.d5

/-- `v` with `x` in the entry numbered `k`. -/
def Six.set {α : Type} (v : Six α) (k : Fin 6) (x : α) : Six α :=
  match k.val with
  | 0 => { v with d0 := x }
  | 1 => { v with d1 := x }
  | 2 => { v with d2 := x }
  | 3 => { v with d3 := x }
  | 4 => { v with d4 := x }
  | _ => { v with d5 := x }

/-- `x` in all six entries. -/
def Six.fill {α : Type} (x : α) : Six α := ⟨x, x, x, x, x, x⟩

/-- Entry by entry, `f` of the two entries with that number. -/
def Six.zip {α β γ : Type} (f : α → β → γ) (v : Six α) (w : Six β) : Six γ :=
  ⟨f v.d0 w.d0, f v.d1 w.d1, f v.d2 w.d2, f v.d3 w.d3, f v.d4 w.d4, f v.d5 w.d5⟩

/-- A time of day (R10, R76): hour 0..23, minute 0..59, second 0..59; no other value exists. -/
structure Time where
  h : Fin 24
  m : Fin 60
  s : Fin 60
  deriving DecidableEq, Repr, Inhabited

/-- A date as `RTC.GETDATE` returns it (R119): day 1..31, month 1..12, year 2000..2099. -/
structure Date where
  day : Nat
  month : Nat
  year : Nat
  deriving DecidableEq, Repr, Inhabited

/-- One entry of the display buffer (R12): 14 segment bits and three annotation bits. -/
structure GridEntry where
  seg : BitVec 14
  dots : Bool
  ub : Bool
  lb : Bool
  deriving DecidableEq, Repr, Inhabited

/-- The three bytes of a three-register bus read, in the order they were read (R105). -/
structure Bytes3 where
  b1 : Byte
  b2 : Byte
  b3 : Byte
  deriving DecidableEq, Repr, Inhabited

/-- The four agents that take atomic steps (R4, R181). -/
inductive Agent where
  | host
  | muxIsr
  | recTask
  | ledTimer
  deriving DecidableEq, Repr, Inhabited

/-- The agent's number (R181), for traces. -/
def Agent.id : Agent → Nat
  | .host => 0
  | .muxIsr => 1
  | .recTask => 2
  | .ledTimer => 3

/-- Byte memory (the `simReg` of R109): pairs of an address and its byte, in one canonical form. -/
abbrev Memory := List Host.Cell

end Sys2Proof
end

