-- ==== Sys2Proof/Syntax.lean ====
section
/-! DEFINITION. The commands of the block: one constructor of `Instr` for each row of the opcode map
(R70), with its operands in the assembler's order (R74), and the operand types the spec's tables name. -/

namespace Sys2Proof

/-- The eighteen named RTC registers, in the order of R35. -/
inductive RtcReg where
  | seconds
  | minutes
  | hour
  | dayOfWeek
  | date
  | monthCentury
  | year
  | alarm1Seconds
  | alarm1Minutes
  | alarm1Hours
  | alarm2Seconds
  | alarm2Minutes
  | alarm2Hours
  | control
  | status
  | agingOffset
  | temperatureMsb
  | temperatureLsb
  deriving DecidableEq, Repr, Inhabited

/-- The seven single-bit controls of the RTC chip, in the order of R112. -/
inductive RtcFlag where
  | sqw
  | intOut
  | a1ie
  | a2ie
  | en32k
  | a1f
  | a2f
  deriving DecidableEq, Repr, Inhabited

/-- Which of the two alarms (R113, R121, R122, R146). -/
inductive AlarmNo where
  | one
  | two
  deriving DecidableEq, Repr, Inhabited

/-- AlarmMode (R25): which setpoints are armed. -/
inductive AlarmMode where
  | off
  | alarm1
  | alarm2
  | both
  deriving DecidableEq, Repr, Inhabited

/-- AlarmState (R26): the lifecycle of a triggered alarm. -/
inductive AlarmState where
  | off
  | sunrise
  | vibration
  | snooze
  deriving DecidableEq, Repr, Inhabited

/-- The cache cell `REC.READ` selects (R34, R148). -/
inductive CacheSel where
  | clock
  | al1
  | al2
  deriving DecidableEq, Repr, Inhabited

/-- The colour of a result flash that a command can ask for (R68). -/
inductive FlashColour where
  | green
  | red
  deriving DecidableEq, Repr, Inhabited

/-- The strip parameter `STRIP.NUDGE` moves (R69). -/
inductive StripSel where
  | brightness
  | colour
  deriving DecidableEq, Repr, Inhabited

/-- The 41 commands of the opcode map (R70). An operand the spec reads as a number keeps the width its
format gives it; an operand that is an index into a table of the spec is that table's type, so an index
outside the table cannot be written (the decoder refuses it, R72). -/
inductive Instr where
  /-- `DSP.WRGRID idx, seg, dots, ub, lb` (R85). -/
  | dspWrgrid (idx : Fin 6) (seg : BitVec 14) (dots ub lb : Bool)
  /-- `DSP.SETBRIGHT pct` (R96). -/
  | dspSetbright (pct : BitVec 7)
  /-- `DSP.GETCMP` (R97). -/
  | dspGetcmp
  /-- `DSP.ENABLE` (R100). -/
  | dspEnable
  /-- `DSP.DISABLE` (R101). -/
  | dspDisable
  /-- `RTC.RDREG reg` (R114). -/
  | rtcRdreg (reg : RtcReg)
  /-- `RTC.WRREG reg, val` (R115). -/
  | rtcWrreg (reg : RtcReg) (val : Byte)
  /-- `RTC.UPDREG reg, bit, v` (R116). -/
  | rtcUpdreg (reg : RtcReg) (bit : Fin 8) (v : Bool)
  /-- `RTC.GETTIME` (R117). -/
  | rtcGettime
  /-- `RTC.SETTIME h, m, s` (R118). -/
  | rtcSettime (h m s : BitVec 8)
  /-- `RTC.GETDATE` (R119). -/
  | rtcGetdate
  /-- `RTC.SETDATE day, month, year` (R120). -/
  | rtcSetdate (day : BitVec 5) (month : BitVec 4) (year : BitVec 17)
  /-- `RTC.GETAL1` (R121). -/
  | rtcGetal1
  /-- `RTC.GETAL2` (R121). -/
  | rtcGetal2
  /-- `RTC.SETAL1 h, m, s` (R122). -/
  | rtcSetal1 (h m s : BitVec 8)
  /-- `RTC.SETAL2 h, m, s` (R122). -/
  | rtcSetal2 (h m s : BitVec 8)
  /-- `RTC.SETFLAG fid, on` (R123). -/
  | rtcSetflag (fid : RtcFlag) (on : Bool)
  /-- `RTC.SELFTEST` (R124). -/
  | rtcSelftest
  /-- `REC.SETMODE v` (R143). -/
  | recSetmode (v : AlarmMode)
  /-- `REC.SETSTATE v` (R144). -/
  | recSetstate (v : AlarmState)
  /-- `REC.SETCLOCK h, m, s` (R145). -/
  | recSetclock (h m s : BitVec 8)
  /-- `REC.SETAL1 h, m, s` (R146). -/
  | recSetal1 (h m s : BitVec 8)
  /-- `REC.SETAL2 h, m, s` (R146). -/
  | recSetal2 (h m s : BitVec 8)
  /-- `REC.ISONLINE` (R147). -/
  | recIsonline
  /-- `REC.READ tsel` (R148). -/
  | recRead (tsel : CacheSel)
  /-- `REC.STATUS` (R149). -/
  | recStatus
  /-- `TIME.ADDH h, m, s, n` (R78). -/
  | timeAddh (h : BitVec 5) (m s : BitVec 6) (n : BitVec 8)
  /-- `TIME.ADDM h, m, s, n` (R79). -/
  | timeAddm (h : BitVec 5) (m s : BitVec 6) (n : BitVec 8)
  /-- `TIME.SUBH h, m, s, n` (R80). -/
  | timeSubh (h : BitVec 5) (m s : BitVec 6) (n : BitVec 8)
  /-- `TIME.SUBM h, m, s, n` (R81). -/
  | timeSubm (h : BitVec 5) (m s : BitVec 6) (n : BitVec 8)
  /-- `TIME.ADDS h, m, s, n` (R82). -/
  | timeAdds (h : BitVec 5) (m s : BitVec 6) (n : BitVec 8)
  /-- `TIME.NORM5 h, m, s` (R83). -/
  | timeNorm5 (h : BitVec 5) (m s : BitVec 6)
  /-- `PWM.SETDUTY ch, val` (R152). -/
  | pwmSetduty (ch : Fin 6) (val : BitVec 16)
  /-- `PWM.START ch` (R153). -/
  | pwmStart (ch : Fin 6)
  /-- `PWM.STOP ch` (R154). -/
  | pwmStop (ch : Fin 6)
  /-- `LED.SETLEVEL ch, val` (R155). -/
  | ledSetlevel (ch : Fin 6) (val : BitVec 16)
  /-- `STL.FRAMECLR` (R160). -/
  | stlFrameclr
  /-- `STL.ALARMLEDS a1, a2` (R161). -/
  | stlAlarmleds (a1 a2 : Bool)
  /-- `STL.FLASH col` (R162). -/
  | stlFlash (col : FlashColour)
  /-- `STRIP.TOGGLE` (R164). -/
  | stripToggle
  /-- `STRIP.NUDGE sel, up` (R165). -/
  | stripNudge (sel : StripSel) (up : Bool)
  deriving DecidableEq, Repr

end Sys2Proof
end

