-- ==== Sys2Proof/Config.lean ====
section
/-! DEFINITION. The parameters of R6 (`Params`), the constraints the spec puts on them
(`Params.legal`), the three whose value the spec decides (`Params.decided`), and the model's free
values: constants without a body, one for each kind of draw (R9), applied to the counter `State` holds. -/

namespace Sys2Proof

/-- On which side of `brightCmp` the display is visible (R98). -/
inductive GatePolarity where
  | visibleBelow
  | visibleAtOrAbove
  deriving DecidableEq, Repr, Inhabited

/-- The order in which a frame's bits are shifted out (R45). -/
inductive ShiftOrder where
  | msbFirst
  | lsbFirst
  deriving DecidableEq, Repr, Inhabited

/-- `RTC_ADDR` (R35): the bus address of each named register. -/
structure RtcAddrs where
  seconds : Byte
  minutes : Byte
  hour : Byte
  dayOfWeek : Byte
  date : Byte
  monthCentury : Byte
  year : Byte
  alarm1Seconds : Byte
  alarm1Minutes : Byte
  alarm1Hours : Byte
  alarm2Seconds : Byte
  alarm2Minutes : Byte
  alarm2Hours : Byte
  control : Byte
  status : Byte
  agingOffset : Byte
  temperatureMsb : Byte
  temperatureLsb : Byte
  deriving DecidableEq, Repr, Inhabited

/-- The addresses in register order. -/
def RtcAddrs.toList (a : RtcAddrs) : List Byte :=
  [a.seconds, a.minutes, a.hour, a.dayOfWeek, a.date, a.monthCentury, a.year, a.alarm1Seconds,
    a.alarm1Minutes, a.alarm1Hours, a.alarm2Seconds, a.alarm2Minutes, a.alarm2Hours, a.control,
    a.status, a.agingOffset, a.temperatureMsb, a.temperatureLsb]

/-- The nine decode masks and the two sets of write bits (R6, R54). -/
structure RtcMasks where
  sec : Byte
  min : Byte
  hour : Byte
  date : Byte
  month : Byte
  year : Byte
  asec : Byte
  amin : Byte
  ahour : Byte
  hourWrite : Byte
  monthWrite : Byte
  deriving DecidableEq, Repr, Inhabited

/-- Where a single-bit control sits and the value that means "on": `FLAG_REG`, `FLAG_BIT`, `FLAG_ON`
(R112). -/
structure FlagPlace where
  reg : RtcReg
  bit : Fin 8
  on : Bool
  deriving DecidableEq, Repr, Inhabited

/-- The places of the seven single-bit controls (R112). -/
structure FlagPlaces where
  sqw : FlagPlace
  intOut : FlagPlace
  a1ie : FlagPlace
  a2ie : FlagPlace
  en32k : FlagPlace
  a1f : FlagPlace
  a2f : FlagPlace
  deriving DecidableEq, Repr, Inhabited

/-- Where the alarm mask bit of one alarm sits: `ALARM_MASK_ADDR[n]`, `ALARM_MASK_BIT[n]` (R113). -/
structure MaskPlace where
  addr : Byte
  bit : Fin 8
  deriving DecidableEq, Repr, Inhabited

/-- `CCT_MIX` (R163): the linear mix that rule gives, or another mix as a table whose row `b`, column `c`
holds the warm and the cold target of brightness `b` and colour temperature `c`. -/
inductive CctMix where
  | linear
  | table (rows : List (List (Nat × Nat)))
  deriving DecidableEq, Repr, Inhabited

/-- The parameters of the model (R6). The four periods are there because R6 names them; no rule reads
them (R200). Their units are the model's (log 21). -/
structure Params where
  shiftOrder : ShiftOrder
  timerTop : Nat
  cmpAt1 : Nat
  cmpAt100 : Nat
  brightCmpReset : Nat
  gatePolarity : GatePolarity
  timeMinuteCarry : Bool
  alarmLeadMin : Nat
  rtcAddrs : RtcAddrs
  masks : RtcMasks
  alarmMask1 : MaskPlace
  alarmMask2 : MaskPlace
  flags : FlagPlaces
  dutyMax : Nat
  levelMax : Nat
  /-- `GAMMA(l)` for l = 0, 1, ..., LEVEL_MAX. -/
  gamma : List Nat
  rampStep : Six Nat
  flashTicks : Nat
  statusLevel : Nat
  alarmLedLevel : Nat
  stripBMax : Nat
  cctMax : Nat
  stripStepB : Nat
  stripStepC : Nat
  cctMix : CctMix
  stripOnReset : Bool
  stripBReset : Nat
  stripCctReset : Nat
  muxPeriodUs : Nat
  pollPeriodMs : Nat
  retryPeriodMs : Nat
  ledTickPeriodUs : Nat
  deriving DecidableEq, Repr, Inhabited

/-- No element is greater than the one after it. -/
def monotone : List Nat → Bool
  | [] => true
  | a :: r => (match r with | [] => true | b :: _ => decide (a ≤ b)) && monotone r

/-- Another mix keeps the targets in the range of a level (R28, R163). -/
def CctMix.within (levelMax : Nat) : CctMix → Bool
  | .linear => true
  | .table rows => rows.all fun row => row.all fun wc => decide (wc.1 ≤ levelMax ∧ wc.2 ≤ levelMax)

/-- The constraints R6 and R157 put on the parameters of the display. -/
def Params.legalDisplay (p : Params) : Bool :=
  decide (1 ≤ p.timerTop) && decide (p.cmpAt1 ≤ p.timerTop + 1) &&
    decide (p.cmpAt100 ≤ p.timerTop + 1) && decide (p.brightCmpReset ≤ p.timerTop + 1)

/-- The constraint R6 puts on the RTC addresses: the map is injective. -/
def Params.legalRtc (p : Params) : Bool := decide p.rtcAddrs.toList.Nodup

/-- The constraints R6 and R157 put on duties, levels, the gamma map and the ramp. -/
def Params.legalLed (p : Params) : Bool :=
  decide (1 ≤ p.dutyMax) && decide (1 ≤ p.levelMax) &&
    decide (p.gamma.length = p.levelMax + 1) && decide (p.gamma.headD 0 = 0) && monotone p.gamma &&
    p.gamma.all (fun d => decide (d ≤ p.dutyMax)) &&
    decide (1 ≤ p.rampStep.d0) && decide (1 ≤ p.rampStep.d1) && decide (1 ≤ p.rampStep.d2) &&
    decide (1 ≤ p.rampStep.d3) && decide (1 ≤ p.rampStep.d4) && decide (1 ≤ p.rampStep.d5) &&
    decide (1 ≤ p.flashTicks) && decide (p.statusLevel ≤ p.levelMax) &&
    decide (p.alarmLedLevel ≤ p.levelMax)

/-- The constraints R6 puts on the strip, with those R30 puts on its reset values. -/
def Params.legalStrip (p : Params) : Bool :=
  decide (1 ≤ p.stripBMax) && decide (p.stripBMax ≤ p.levelMax) && decide (1 ≤ p.cctMax) &&
    decide (1 ≤ p.stripStepB) && decide (1 ≤ p.stripStepC) && p.cctMix.within p.levelMax &&
    decide (p.stripBReset ≤ p.stripBMax) && decide (p.stripCctReset ≤ p.cctMax)

/-- The periods R6 gives: the two it fixes are one second, the two OPEN ones positive. DESIGN CHOICE (log 21):
`MUX_PERIOD` and `LED_TICK_PERIOD` are held as whole numbers of microseconds, `POLL_PERIOD` and `RETRY_PERIOD` as
whole numbers of milliseconds, and a machine whose periods are no such numbers is not among the legal ones. -/
def Params.legalPeriods (p : Params) : Bool :=
  decide (1 ≤ p.muxPeriodUs) && decide (p.pollPeriodMs = 1000) && decide (p.retryPeriodMs = 1000) &&
    decide (1 ≤ p.ledTickPeriodUs)

/-- Every constraint of R6. -/
def Params.legal (p : Params) : Bool :=
  p.legalDisplay && p.legalRtc && p.legalLed && p.legalStrip && p.legalPeriods

/-- `p` with the three values the spec decides: D11, D21, D22 (R6). -/
def Params.decided (p : Params) : Params :=
  { p with shiftOrder := .msbFirst, timeMinuteCarry := true, alarmLeadMin := 0 }

/-- Some legal parameters: they serve only to say that a legal choice exists, and are taken only where
the free `Config.rawParams` is none (log 4). -/
def Params.someLegal : Params where
  shiftOrder := .msbFirst
  timerTop := 1
  cmpAt1 := 0
  cmpAt100 := 2
  brightCmpReset := 0
  gatePolarity := .visibleBelow
  timeMinuteCarry := true
  alarmLeadMin := 0
  rtcAddrs := ⟨0, 1, 2, 3, 4, 5, 6, 7, 8, 9, 10, 11, 12, 13, 14, 15, 16, 17⟩
  masks := ⟨0x7F, 0x7F, 0x3F, 0x3F, 0x1F, 0xFF, 0x7F, 0x7F, 0x3F, 0x00, 0x00⟩
  alarmMask1 := ⟨9, 7⟩
  alarmMask2 := ⟨12, 7⟩
  flags := ⟨⟨.control, 2, false⟩, ⟨.control, 2, true⟩, ⟨.control, 0, true⟩, ⟨.control, 1, true⟩,
    ⟨.status, 3, true⟩, ⟨.status, 0, true⟩, ⟨.status, 1, true⟩⟩
  dutyMax := 1
  levelMax := 1
  gamma := [0, 1]
  rampStep := Six.fill 1
  flashTicks := 1
  statusLevel := 1
  alarmLedLevel := 1
  stripBMax := 1
  cctMax := 1
  stripStepB := 1
  stripStepC := 1
  cctMix := .linear
  stripOnReset := false
  stripBReset := 0
  stripCctReset := 0
  muxPeriodUs := 250
  pollPeriodMs := 1000
  retryPeriodMs := 1000
  ledTickPeriodUs := 1

namespace Config

/-- FREE VALUE (log 4): the values of the OPEN parameters (R6). -/
opaque rawParams : Params

/-- The parameters of this machine: any legal choice of the OPEN ones, and the decided values (R6). -/
def params : Params :=
  (if rawParams.legal then rawParams else Params.someLegal).decided

/-- FREE VALUE (log 6): `muxIdx` at reset, drawn from 0..5 (R14). -/
opaque resetMuxIdx : Fin 6

/-- FREE VALUE (log 6): `srStage` at reset, drawn from all 17-bit values (R15). -/
opaque resetStage : Frame

/-- FREE VALUE (log 6): `srLatch` at reset, drawn from all 17-bit values (R15). -/
opaque resetLatch : Frame

/-- FREE VALUE (log 1): the agent that steps next where the environment lists none (R48, R174). -/
opaque freeAgent : Nat → Agent

/-- FREE VALUE (log 2): what the Host presents where the environment lists no word: any word, or none
(R178). -/
opaque freeWord : Nat → Option Command

/-- FREE VALUE (log 9): the oracle's answer to a read: none, or any bytes (R103, R105). -/
opaque freeRead : Nat → Option Bytes3

/-- FREE VALUE (log 9): the oracle's answer to a write or a probe (R103, R106, R108). -/
opaque freeAck : Nat → Bool

/-- FREE VALUE (log 3): the result of a setter with an invalid operand (R111). -/
opaque freeResult : Nat → Bool

/-- FREE VALUE (log 3): the frame read from an unwritten entry (R89). -/
opaque freeFrame : Nat → Frame

/-- FREE VALUE (log 15): what `RecTask` reads from a temporary that nothing has written (R20, R140). -/
opaque freeTime : Nat → Time

/-- FREE VALUE (log 13): the entry seen while a write to an unwritten entry is pending (R40). -/
opaque freeEntry : Nat → GridEntry

/-- FREE VALUE (log 13): which of the values a torn field may show (R40). -/
opaque freePick : Nat → Nat

/-- FREE VALUE (log 25): the timer counter an observer that fixes none sees (R33, R99). -/
opaque freeCounter : Nat → Nat

end Config

end Sys2Proof
end

