-- ==== Sys2Proof/WellFormed.lean ====
section
/-! DEFINITION. The check of an instruction's operands. The only operand a constructor can hold and its
format cannot is a format X Time operand that is no legal Time (R62); every other bound of R72 stands in
the operand's type. -/

namespace Sys2Proof

/-- The three fields of a format X operand are a legal Time (R10, R62). -/
def legalTimeFields (h : BitVec 5) (m s : BitVec 6) : Bool :=
  decide (h.toNat ≤ 23) && decide (m.toNat ≤ 59) && decide (s.toNat ≤ 59)

/-- The instruction has a word in the opcode map (R70, R72). -/
def Instr.wellFormed : Instr → Bool
  | .dspWrgrid _ _ _ _ _ => true
  | .dspSetbright _ => true
  | .dspGetcmp => true
  | .dspEnable => true
  | .dspDisable => true
  | .rtcRdreg _ => true
  | .rtcWrreg _ _ => true
  | .rtcUpdreg _ _ _ => true
  | .rtcGettime => true
  | .rtcSettime _ _ _ => true
  | .rtcGetdate => true
  | .rtcSetdate _ _ _ => true
  | .rtcGetal1 => true
  | .rtcGetal2 => true
  | .rtcSetal1 _ _ _ => true
  | .rtcSetal2 _ _ _ => true
  | .rtcSetflag _ _ => true
  | .rtcSelftest => true
  | .recSetmode _ => true
  | .recSetstate _ => true
  | .recSetclock _ _ _ => true
  | .recSetal1 _ _ _ => true
  | .recSetal2 _ _ _ => true
  | .recIsonline => true
  | .recRead _ => true
  | .recStatus => true
  | .timeAddh h m s _ => legalTimeFields h m s
  | .timeAddm h m s _ => legalTimeFields h m s
  | .timeSubh h m s _ => legalTimeFields h m s
  | .timeSubm h m s _ => legalTimeFields h m s
  | .timeAdds h m s _ => legalTimeFields h m s
  | .timeNorm5 h m s => legalTimeFields h m s
  | .pwmSetduty _ _ => true
  | .pwmStart _ => true
  | .pwmStop _ => true
  | .ledSetlevel _ _ => true
  | .stlFrameclr => true
  | .stlAlarmleds _ _ => true
  | .stlFlash _ => true
  | .stripToggle => true
  | .stripNudge _ _ => true

end Sys2Proof
end

