-- ==== Sys2Proof/Decode.lean ====
section
/-! DEFINITION. The command word (R55 to R72): its bit fields, the decoder from words and from bytes,
total and refusing by name, the encoder written from the same format tables, and the expansions of the
pseudo-instructions (R75). -/

namespace Sys2Proof

/-! ### Fields -/

/-- `w[hi:lo]` as an unsigned number (R7). -/
def bits (w : Command) (hi lo : Nat) : Nat := w.toNat / 2 ^ lo % 2 ^ (hi + 1 - lo)

/-- `w[j]` (R7). -/
def bitAt (w : Command) (j : Nat) : Bool := decide (bits w j j = 1)

/-- An index into a table of six: a digit (R57) or a channel (R65, R66). -/
def sixOfCode (n : Nat) : Option (Fin 6) := if h : n < 6 then some ⟨n, h⟩ else none

/-- The register number of R35. -/
def RtcReg.code : RtcReg → Nat
  | .seconds => 0
  | .minutes => 1
  | .hour => 2
  | .dayOfWeek => 3
  | .date => 4
  | .monthCentury => 5
  | .year => 6
  | .alarm1Seconds => 7
  | .alarm1Minutes => 8
  | .alarm1Hours => 9
  | .alarm2Seconds => 10
  | .alarm2Minutes => 11
  | .alarm2Hours => 12
  | .control => 13
  | .status => 14
  | .agingOffset => 15
  | .temperatureMsb => 16
  | .temperatureLsb => 17

/-- The register with that number (R35, R59); none for 18 and above (R72). -/
def RtcReg.ofCode : Nat → Option RtcReg
  | 0 => some .seconds
  | 1 => some .minutes
  | 2 => some .hour
  | 3 => some .dayOfWeek
  | 4 => some .date
  | 5 => some .monthCentury
  | 6 => some .year
  | 7 => some .alarm1Seconds
  | 8 => some .alarm1Minutes
  | 9 => some .alarm1Hours
  | 10 => some .alarm2Seconds
  | 11 => some .alarm2Minutes
  | 12 => some .alarm2Hours
  | 13 => some .control
  | 14 => some .status
  | 15 => some .agingOffset
  | 16 => some .temperatureMsb
  | 17 => some .temperatureLsb
  | _ => none

/-- The flag number of R112. -/
def RtcFlag.code : RtcFlag → Nat
  | .sqw => 0
  | .intOut => 1
  | .a1ie => 2
  | .a2ie => 3
  | .en32k => 4
  | .a1f => 5
  | .a2f => 6

/-- The flag with that number (R64, R112); none for 7 and above (R72). -/
def RtcFlag.ofCode : Nat → Option RtcFlag
  | 0 => some .sqw
  | 1 => some .intOut
  | 2 => some .a1ie
  | 3 => some .a2ie
  | 4 => some .en32k
  | 5 => some .a1f
  | 6 => some .a2f
  | _ => none

/-- The AlarmMode code of R25. -/
def AlarmMode.code : AlarmMode → Nat
  | .off => 0
  | .alarm1 => 1
  | .alarm2 => 2
  | .both => 3

/-- The AlarmMode with that code; every 2-bit value is legal (R31, R143). -/
def AlarmMode.ofCode : Nat → AlarmMode
  | 0 => .off
  | 1 => .alarm1
  | 2 => .alarm2
  | _ => .both

/-- The AlarmState code of R26. -/
def AlarmState.code : AlarmState → Nat
  | .off => 0
  | .sunrise => 1
  | .vibration => 2
  | .snooze => 3

/-- The AlarmState with that code; every 2-bit value is legal (R31, R144). -/
def AlarmState.ofCode : Nat → AlarmState
  | 0 => .off
  | 1 => .sunrise
  | 2 => .vibration
  | _ => .snooze

/-- The `tsel` code of R148. -/
def CacheSel.code : CacheSel → Nat
  | .clock => 0
  | .al1 => 1
  | .al2 => 2

/-- The cache with that code; `v = 3` names none (R72). -/
def CacheSel.ofCode : Nat → Option CacheSel
  | 0 => some .clock
  | 1 => some .al1
  | 2 => some .al2
  | _ => none

/-- The colour code of R68. -/
def FlashColour.code : FlashColour → Nat
  | .green => 1
  | .red => 2

/-- The colour with that code; 0 and 3 name none (R68, R72). -/
def FlashColour.ofCode : Nat → Option FlashColour
  | 1 => some .green
  | 2 => some .red
  | _ => none

/-- The `sel` bit of R69. -/
def StripSel.code : StripSel → Nat
  | .brightness => 0
  | .colour => 1

/-- The strip parameter the `sel` bit names (R69). -/
def StripSel.ofBit : Bool → StripSel
  | false => .brightness
  | true => .colour

/-! ### The decoder -/

/-- Why a word is no command (R72, in the order R169 checks them), and the one case of bytes only. -/
inductive Reserved where
  /-- Its opcode is not in the map (R72 case 1). -/
  | unknownOpcode
  /-- A bit its format or its opcode fixes to 0 is 1 (R72 case 2). -/
  | reservedBit
  /-- An index field is out of its table (R72 case 3). -/
  | indexOutOfTable
  /-- A format X operand is not a legal Time (R72 case 4). -/
  | illegalTime
  /-- The bytes are not the four of one command word (R42: a command moves one 32-bit word). -/
  | notOneWord
  deriving DecidableEq, Repr

/-- What the decoder answers. -/
inductive Decoded where
  | instr (i : Instr)
  | reserved (why : Reserved)
  deriving DecidableEq, Repr

/-- Reserved bits first, then the operands (R169). -/
def reservedUnless (zero : Bool) (d : Decoded) : Decoded :=
  if zero then d else .reserved .reservedBit

/-- An index first looked up in its table (R72 case 3). -/
def withIndex {α : Type} (ix : Option α) (k : α → Decoded) : Decoded :=
  match ix with
  | some a => k a
  | none => .reserved .indexOutOfTable

/-- Format N (R56). -/
def decodeN (w : Command) (i : Instr) : Decoded :=
  reservedUnless (bits w 25 0 == 0) (.instr i)

/-- Format G (R57). -/
def decodeG (w : Command) (mk : Fin 6 → BitVec 14 → Bool → Bool → Bool → Instr) : Decoded :=
  reservedUnless (bits w 22 17 == 0) <|
    withIndex (sixOfCode (bits w 25 23)) fun k =>
      .instr (mk k (BitVec.ofNat 14 (bits w 13 0)) (bitAt w 14) (bitAt w 15) (bitAt w 16))

/-- Format B (R58). -/
def decodeB (w : Command) (mk : BitVec 7 → Instr) : Decoded :=
  reservedUnless (bits w 25 7 == 0) (.instr (mk (BitVec.ofNat 7 (bits w 6 0))))

/-- Format R with `bit = 0` and `val = 0`: `RTC.RDREG` (R59, R70). -/
def decodeRread (w : Command) (mk : RtcReg → Instr) : Decoded :=
  reservedUnless (bits w 25 21 == 0 && bits w 15 0 == 0) <|
    withIndex (RtcReg.ofCode (bits w 20 16)) fun r => .instr (mk r)

/-- Format R with `bit = 0`: `RTC.WRREG` (R59, R70). -/
def decodeRwrite (w : Command) (mk : RtcReg → Byte → Instr) : Decoded :=
  reservedUnless (bits w 25 21 == 0 && bits w 15 8 == 0) <|
    withIndex (RtcReg.ofCode (bits w 20 16)) fun r => .instr (mk r (BitVec.ofNat 8 (bits w 7 0)))

/-- Format R with `val[7:1] = 0`: `RTC.UPDREG` (R59, R70). -/
def decodeRupdate (w : Command) (mk : RtcReg → Fin 8 → Bool → Instr) : Decoded :=
  reservedUnless (bits w 25 21 == 0 && bits w 15 11 == 0 && bits w 7 1 == 0) <|
    withIndex (RtcReg.ofCode (bits w 20 16)) fun r =>
      .instr (mk r (Fin.ofNat 8 (bits w 10 8)) (bitAt w 0))

/-- Format T (R60). -/
def decodeT (w : Command) (mk : BitVec 8 → BitVec 8 → BitVec 8 → Instr) : Decoded :=
  reservedUnless (bits w 25 24 == 0) <|
    .instr (mk (BitVec.ofNat 8 (bits w 23 16)) (BitVec.ofNat 8 (bits w 15 8))
      (BitVec.ofNat 8 (bits w 7 0)))

/-- Format D (R61): no reserved bit. -/
def decodeD (w : Command) (mk : BitVec 5 → BitVec 4 → BitVec 17 → Instr) : Decoded :=
  .instr (mk (BitVec.ofNat 5 (bits w 25 21)) (BitVec.ofNat 4 (bits w 20 17))
    (BitVec.ofNat 17 (bits w 16 0)))

/-- The Time operand of format X (R62): bits 16:0, a legal Time or the word is refused. -/
def decodeTimeOperand (w : Command) (mk : BitVec 5 → BitVec 6 → BitVec 6 → Instr) : Decoded :=
  if bits w 16 12 ≤ 23 ∧ bits w 11 6 ≤ 59 ∧ bits w 5 0 ≤ 59 then
    .instr (mk (BitVec.ofNat 5 (bits w 16 12)) (BitVec.ofNat 6 (bits w 11 6))
      (BitVec.ofNat 6 (bits w 5 0)))
  else .reserved .illegalTime

/-- Format X (R62). -/
def decodeX (w : Command) (mk : BitVec 5 → BitVec 6 → BitVec 6 → BitVec 8 → Instr) : Decoded :=
  reservedUnless (bits w 17 17 == 0) <|
    decodeTimeOperand w fun h m s => mk h m s (BitVec.ofNat 8 (bits w 25 18))

/-- Format X with `n = 0`: `TIME.NORM5` (R62, R70). -/
def decodeX0 (w : Command) (mk : BitVec 5 → BitVec 6 → BitVec 6 → Instr) : Decoded :=
  reservedUnless (bits w 25 17 == 0) (decodeTimeOperand w mk)

/-- Format M where every value is legal (R63). -/
def decodeM (w : Command) (mk : Nat → Instr) : Decoded :=
  reservedUnless (bits w 25 2 == 0) (.instr (mk (bits w 1 0)))

/-- Format M with `v ≠ 3`: `REC.READ` (R63, R70). -/
def decodeMread (w : Command) (mk : CacheSel → Instr) : Decoded :=
  reservedUnless (bits w 25 2 == 0) <|
    withIndex (CacheSel.ofCode (bits w 1 0)) fun c => .instr (mk c)

/-- Format F (R64). -/
def decodeF (w : Command) (mk : RtcFlag → Bool → Instr) : Decoded :=
  reservedUnless (bits w 25 19 == 0 && bits w 15 1 == 0) <|
    withIndex (RtcFlag.ofCode (bits w 18 16)) fun f => .instr (mk f (bitAt w 0))

/-- Format P (R65). -/
def decodeP (w : Command) (mk : Fin 6 → BitVec 16 → Instr) : Decoded :=
  reservedUnless (bits w 21 16 == 0) <|
    withIndex (sixOfCode (bits w 25 22)) fun c => .instr (mk c (BitVec.ofNat 16 (bits w 15 0)))

/-- Format C (R66). -/
def decodeC (w : Command) (mk : Fin 6 → Instr) : Decoded :=
  reservedUnless (bits w 21 0 == 0) <|
    withIndex (sixOfCode (bits w 25 22)) fun c => .instr (mk c)

/-- Format A (R67). -/
def decodeA (w : Command) (mk : Bool → Bool → Instr) : Decoded :=
  reservedUnless (bits w 25 2 == 0) (.instr (mk (bitAt w 0) (bitAt w 1)))

/-- Format K (R68). -/
def decodeK (w : Command) (mk : FlashColour → Instr) : Decoded :=
  reservedUnless (bits w 25 2 == 0) <|
    withIndex (FlashColour.ofCode (bits w 1 0)) fun c => .instr (mk c)

/-- Format S (R69). -/
def decodeS (w : Command) (mk : StripSel → Bool → Instr) : Decoded :=
  reservedUnless (bits w 25 2 == 0) (.instr (mk (StripSel.ofBit (bitAt w 1)) (bitAt w 0)))

/-- The opcode map (R70): bits 31:26 alone select the format (R55). -/
def decodeWord (w : Command) : Decoded :=
  match bits w 31 26 with
  | 0x01 => decodeG w .dspWrgrid
  | 0x02 => decodeB w .dspSetbright
  | 0x03 => decodeN w .dspGetcmp
  | 0x04 => decodeN w .dspEnable
  | 0x05 => decodeN w .dspDisable
  | 0x08 => decodeRread w .rtcRdreg
  | 0x09 => decodeRwrite w .rtcWrreg
  | 0x0A => decodeRupdate w .rtcUpdreg
  | 0x0B => decodeN w .rtcGettime
  | 0x0C => decodeT w .rtcSettime
  | 0x0D => decodeN w .rtcGetdate
  | 0x0E => decodeD w .rtcSetdate
  | 0x0F => decodeN w .rtcGetal1
  | 0x10 => decodeN w .rtcGetal2
  | 0x11 => decodeT w .rtcSetal1
  | 0x12 => decodeT w .rtcSetal2
  | 0x13 => decodeF w .rtcSetflag
  | 0x14 => decodeN w .rtcSelftest
  | 0x18 => decodeM w fun v => .recSetmode (AlarmMode.ofCode v)
  | 0x19 => decodeM w fun v => .recSetstate (AlarmState.ofCode v)
  | 0x1A => decodeT w .recSetclock
  | 0x1B => decodeT w .recSetal1
  | 0x1C => decodeT w .recSetal2
  | 0x1D => decodeN w .recIsonline
  | 0x1E => decodeMread w .recRead
  | 0x1F => decodeN w .recStatus
  | 0x20 => decodeX w .timeAddh
  | 0x21 => decodeX w .timeAddm
  | 0x22 => decodeX w .timeSubh
  | 0x23 => decodeX w .timeSubm
  | 0x24 => decodeX w .timeAdds
  | 0x25 => decodeX0 w .timeNorm5
  | 0x28 => decodeP w .pwmSetduty
  | 0x29 => decodeC w .pwmStart
  | 0x2A => decodeC w .pwmStop
  | 0x2B => decodeP w .ledSetlevel
  | 0x30 => decodeN w .stlFrameclr
  | 0x31 => decodeA w .stlAlarmleds
  | 0x32 => decodeK w .stlFlash
  | 0x38 => decodeN w .stripToggle
  | 0x39 => decodeS w .stripNudge
  | _ => .reserved .unknownOpcode

/-- A command word built from bytes is little-endian (R47). -/
def wordOfBytes (b0 b1 b2 b3 : Byte) : Command :=
  BitVec.ofNat 32 (b0.toNat + b1.toNat * 2 ^ 8 + b2.toNat * 2 ^ 16 + b3.toNat * 2 ^ 24)

/-- The bytes of a command word, the least significant first (R47). -/
def bytesOfWord (w : Command) : List Byte :=
  [BitVec.ofNat 8 (bits w 7 0), BitVec.ofNat 8 (bits w 15 8), BitVec.ofNat 8 (bits w 23 16),
    BitVec.ofNat 8 (bits w 31 24)]

/-- The decoder on bytes: total, and refusing by name. -/
def decodeBytes : List Byte → Decoded
  | [b0, b1, b2, b3] => decodeWord (wordOfBytes b0 b1 b2 b3)
  | _ => .reserved .notOneWord

/-- The instruction in a decoder's answer. -/
def Decoded.toOption : Decoded → Option Instr
  | .instr i => some i
  | .reserved _ => none

/-- The command word the opcode table's `nbits` bits `w` stand for; a bit above `nbits` is 0. -/
def tableWord (nbits w : Nat) : Command := BitVec.ofNat 32 (w % 2 ^ nbits)

/-- The instruction the decoder reads from a word of the opcode table, laid out as its four bytes (R47). -/
def decodeTableWord (nbits w : Nat) : Option Instr :=
  (decodeBytes (bytesOfWord (tableWord nbits w))).toOption

/-! ### The encoder -/

/-- The number 1 or 0 a Boolean field holds (R7). -/
def bitNat (b : Bool) : Nat := b.toNat

/-- A word from its opcode (bits 31:26) and its bits 25:0 (R55). -/
def packWord (op low : Nat) : Command := BitVec.ofNat 32 (op * 2 ^ 26 + low)

/-- Bits 25:0 of format T (R60). -/
def lowT (h m s : BitVec 8) : Nat := h.toNat * 2 ^ 16 + m.toNat * 2 ^ 8 + s.toNat

/-- Bits 25:0 of format X (R62). -/
def lowX (h : BitVec 5) (m s : BitVec 6) (n : Nat) : Nat :=
  n * 2 ^ 18 + h.toNat * 2 ^ 12 + m.toNat * 2 ^ 6 + s.toNat

/-- The opcode of R70. -/
def Instr.opcode : Instr → Nat
  | .dspWrgrid _ _ _ _ _ => 0x01
  | .dspSetbright _ => 0x02
  | .dspGetcmp => 0x03
  | .dspEnable => 0x04
  | .dspDisable => 0x05
  | .rtcRdreg _ => 0x08
  | .rtcWrreg _ _ => 0x09
  | .rtcUpdreg _ _ _ => 0x0A
  | .rtcGettime => 0x0B
  | .rtcSettime _ _ _ => 0x0C
  | .rtcGetdate => 0x0D
  | .rtcSetdate _ _ _ => 0x0E
  | .rtcGetal1 => 0x0F
  | .rtcGetal2 => 0x10
  | .rtcSetal1 _ _ _ => 0x11
  | .rtcSetal2 _ _ _ => 0x12
  | .rtcSetflag _ _ => 0x13
  | .rtcSelftest => 0x14
  | .recSetmode _ => 0x18
  | .recSetstate _ => 0x19
  | .recSetclock _ _ _ => 0x1A
  | .recSetal1 _ _ _ => 0x1B
  | .recSetal2 _ _ _ => 0x1C
  | .recIsonline => 0x1D
  | .recRead _ => 0x1E
  | .recStatus => 0x1F
  | .timeAddh _ _ _ _ => 0x20
  | .timeAddm _ _ _ _ => 0x21
  | .timeSubh _ _ _ _ => 0x22
  | .timeSubm _ _ _ _ => 0x23
  | .timeAdds _ _ _ _ => 0x24
  | .timeNorm5 _ _ _ => 0x25
  | .pwmSetduty _ _ => 0x28
  | .pwmStart _ => 0x29
  | .pwmStop _ => 0x2A
  | .ledSetlevel _ _ => 0x2B
  | .stlFrameclr => 0x30
  | .stlAlarmleds _ _ => 0x31
  | .stlFlash _ => 0x32
  | .stripToggle => 0x38
  | .stripNudge _ _ => 0x39

/-- Bits 25:0, by the instruction's format (R56 to R69). -/
def Instr.low : Instr → Nat
  | .dspWrgrid k seg dots ub lb =>
    k.val * 2 ^ 23 + bitNat lb * 2 ^ 16 + bitNat ub * 2 ^ 15 + bitNat dots * 2 ^ 14 + seg.toNat
  | .dspSetbright pct => pct.toNat
  | .dspGetcmp => 0
  | .dspEnable => 0
  | .dspDisable => 0
  | .rtcRdreg r => r.code * 2 ^ 16
  | .rtcWrreg r v => r.code * 2 ^ 16 + v.toNat
  | .rtcUpdreg r b v => r.code * 2 ^ 16 + b.val * 2 ^ 8 + bitNat v
  | .rtcGettime => 0
  | .rtcSettime h m s => lowT h m s
  | .rtcGetdate => 0
  | .rtcSetdate d mo y => d.toNat * 2 ^ 21 + mo.toNat * 2 ^ 17 + y.toNat
  | .rtcGetal1 => 0
  | .rtcGetal2 => 0
  | .rtcSetal1 h m s => lowT h m s
  | .rtcSetal2 h m s => lowT h m s
  | .rtcSetflag f on => f.code * 2 ^ 16 + bitNat on
  | .rtcSelftest => 0
  | .recSetmode v => v.code
  | .recSetstate v => v.code
  | .recSetclock h m s => lowT h m s
  | .recSetal1 h m s => lowT h m s
  | .recSetal2 h m s => lowT h m s
  | .recIsonline => 0
  | .recRead c => c.code
  | .recStatus => 0
  | .timeAddh h m s n => lowX h m s n.toNat
  | .timeAddm h m s n => lowX h m s n.toNat
  | .timeSubh h m s n => lowX h m s n.toNat
  | .timeSubm h m s n => lowX h m s n.toNat
  | .timeAdds h m s n => lowX h m s n.toNat
  | .timeNorm5 h m s => lowX h m s 0
  | .pwmSetduty c v => c.val * 2 ^ 22 + v.toNat
  | .pwmStart c => c.val * 2 ^ 22
  | .pwmStop c => c.val * 2 ^ 22
  | .ledSetlevel c v => c.val * 2 ^ 22 + v.toNat
  | .stlFrameclr => 0
  | .stlAlarmleds a1 a2 => bitNat a2 * 2 + bitNat a1
  | .stlFlash c => c.code
  | .stripToggle => 0
  | .stripNudge sel up => sel.code * 2 + bitNat up

/-- The command word of an instruction (R55, R70). -/
def encode (i : Instr) : Command := packWord i.opcode i.low

/-- The four bytes of an instruction's word (R47). -/
def encodeBytes (i : Instr) : List Byte := bytesOfWord (encode i)

/-! ### Pseudo-instructions (R75) -/

/-- `DSP.BLANKALL`: a `DSP.WRGRID` of zeros to each digit, in ascending order. -/
def expandBlankAll : List Instr :=
  [0, 1, 2, 3, 4, 5].map fun k => .dspWrgrid k 0 false false false

/-- `REC.CANCEL`. -/
def expandCancel : List Instr := [.recSetstate .off]

/-- `RTC.CLRFLAGS`. -/
def expandClrFlags : List Instr := [.rtcSetflag .a1f false, .rtcSetflag .a2f false]

end Sys2Proof
end

