-- ==== Sys2Proof/Machine/Operands.lean ====
section
/-! DEFINITION. The operand forms: the parameter tables, BCD bytes (R11), the register byte formats and
their checks (R54, R110), the operands of the setters (R111), the Time operand of format X (R62), and the
display frame (R52). -/

namespace Sys2Proof

/-! ### Parameter tables -/

/-- `RTC_ADDR(r)` (R35). -/
def Params.rtcAddr (p : Params) : RtcReg → Byte
  | .seconds => p.rtcAddrs.seconds
  | .minutes => p.rtcAddrs.minutes
  | .hour => p.rtcAddrs.hour
  | .dayOfWeek => p.rtcAddrs.dayOfWeek
  | .date => p.rtcAddrs.date
  | .monthCentury => p.rtcAddrs.monthCentury
  | .year => p.rtcAddrs.year
  | .alarm1Seconds => p.rtcAddrs.alarm1Seconds
  | .alarm1Minutes => p.rtcAddrs.alarm1Minutes
  | .alarm1Hours => p.rtcAddrs.alarm1Hours
  | .alarm2Seconds => p.rtcAddrs.alarm2Seconds
  | .alarm2Minutes => p.rtcAddrs.alarm2Minutes
  | .alarm2Hours => p.rtcAddrs.alarm2Hours
  | .control => p.rtcAddrs.control
  | .status => p.rtcAddrs.status
  | .agingOffset => p.rtcAddrs.agingOffset
  | .temperatureMsb => p.rtcAddrs.temperatureMsb
  | .temperatureLsb => p.rtcAddrs.temperatureLsb

/-- The place of a single-bit control (R112). -/
def Params.flagPlace (p : Params) : RtcFlag → FlagPlace
  | .sqw => p.flags.sqw
  | .intOut => p.flags.intOut
  | .a1ie => p.flags.a1ie
  | .a2ie => p.flags.a2ie
  | .en32k => p.flags.en32k
  | .a1f => p.flags.a1f
  | .a2f => p.flags.a2f

/-- The place of an alarm's mask bit (R113). -/
def Params.maskPlace (p : Params) : AlarmNo → MaskPlace
  | .one => p.alarmMask1
  | .two => p.alarmMask2

/-- `GAMMA(l)` (R157). A level above LEVEL_MAX is never held; there the table has no value, and the model
reads 0 (log 22). -/
def Params.gammaAt (p : Params) (l : Nat) : Nat := p.gamma.getD l 0

/-! ### BCD (R11) -/

/-- `bcd(v)` for 0 ≤ v ≤ 99: the tens digit in bits 7:4. -/
def bcd (v : Nat) : Byte := BitVec.ofNat 8 (v / 10 * 16 + v % 10)

/-- The upper nibble, `b[7:4]`. -/
def hiNibble (b : Byte) : Nat := b.toNat / 16

/-- The lower nibble, `b[3:0]`. -/
def loNibble (b : Byte) : Nat := b.toNat % 16

/-- `bcdValid(b)`. -/
def bcdValid (b : Byte) : Bool := decide (hiNibble b ≤ 9) && decide (loNibble b ≤ 9)

/-- `unbcd(b)`. -/
def unbcd (b : Byte) : Nat := 10 * hiNibble b + loNibble b

/-! ### Register bytes (R54) -/

/-- How a BCD register is read: the mask, what is added to the decoded value, and the legal range. -/
structure DecodeForm where
  mask : Byte
  base : Nat
  low : Nat
  high : Nat
  deriving DecidableEq, Repr

/-- The row of R54 for a register; none for the raw registers. -/
def Params.decodeForm (p : Params) : RtcReg → Option DecodeForm
  | .seconds => some ⟨p.masks.sec, 0, 0, 59⟩
  | .minutes => some ⟨p.masks.min, 0, 0, 59⟩
  | .hour => some ⟨p.masks.hour, 0, 0, 23⟩
  | .dayOfWeek => none
  | .date => some ⟨p.masks.date, 0, 1, 31⟩
  | .monthCentury => some ⟨p.masks.month, 0, 1, 12⟩
  | .year => some ⟨p.masks.year, 2000, 2000, 2099⟩
  | .alarm1Seconds => some ⟨p.masks.asec, 0, 0, 59⟩
  | .alarm1Minutes => some ⟨p.masks.amin, 0, 0, 59⟩
  | .alarm1Hours => some ⟨p.masks.ahour, 0, 0, 23⟩
  | .alarm2Seconds => some ⟨p.masks.asec, 0, 0, 59⟩
  | .alarm2Minutes => some ⟨p.masks.amin, 0, 0, 59⟩
  | .alarm2Hours => some ⟨p.masks.ahour, 0, 0, 23⟩
  | .control => none
  | .status => none
  | .agingOffset => none
  | .temperatureMsb => none
  | .temperatureLsb => none

/-- A byte read through one row of R54: mask, `bcdValid`, `unbcd`, range (R110). -/
def DecodeForm.decode (f : DecodeForm) (b : Byte) : Option Nat :=
  let c := b &&& f.mask
  let v := f.base + unbcd c
  if bcdValid c && decide (f.low ≤ v) && decide (v ≤ f.high) then some v else none

/-- `dec(r, b)` (R54, R110); none where the byte fails the check. -/
def Params.dec (p : Params) (r : RtcReg) (b : Byte) : Option Nat :=
  match p.decodeForm r with
  | some f => f.decode b
  | none => some b.toNat

/-- The byte written for value `v` (R54). -/
def Params.enc (p : Params) (r : RtcReg) (v : Nat) : Byte :=
  match r with
  | .hour => bcd v ||| p.masks.hourWrite
  | .monthCentury => bcd v ||| p.masks.monthWrite
  | .year => bcd (v - 2000)
  | .seconds => bcd v
  | .minutes => bcd v
  | .date => bcd v
  | .alarm1Seconds => bcd v
  | .alarm1Minutes => bcd v
  | .alarm1Hours => bcd v
  | .alarm2Seconds => bcd v
  | .alarm2Minutes => bcd v
  | .alarm2Hours => bcd v
  | .dayOfWeek => BitVec.ofNat 8 v
  | .control => BitVec.ofNat 8 v
  | .status => BitVec.ofNat 8 v
  | .agingOffset => BitVec.ofNat 8 v
  | .temperatureMsb => BitVec.ofNat 8 v
  | .temperatureLsb => BitVec.ofNat 8 v

/-- The Time of three numbers in range. -/
def timeOf (h m s : Nat) : Time := ⟨Fin.ofNat 24 h, Fin.ofNat 60 m, Fin.ofNat 60 s⟩

/-- What a getter got from its one transaction (R110). -/
inductive Fetched (α : Type) where
  /-- The read failed. -/
  | failed
  /-- The first byte, in the order of the transaction, that fails its decode (R169). -/
  | bad (reg : RtcReg) (byte : Byte)
  | got (a : α)
  deriving DecidableEq, Repr

/-- One byte of a getter decoded; the getter goes on with the value (R110). -/
def Params.decThen {α : Type} (p : Params) (r : RtcReg) (b : Byte) (k : Nat → Fetched α) : Fetched α :=
  match p.dec r b with
  | some v => k v
  | none => .bad r b

/-- The three registers a getter reads, in order (R46). -/
structure Regs3 where
  r1 : RtcReg
  r2 : RtcReg
  r3 : RtcReg
  deriving DecidableEq, Repr

/-- Seconds, minutes, hours of the clock (R117). -/
def timeRegs : Regs3 := ⟨.seconds, .minutes, .hour⟩

/-- Date, month, year (R119). -/
def dateRegs : Regs3 := ⟨.date, .monthCentury, .year⟩

/-- Seconds, minutes, hours of an alarm (R121). -/
def alarmRegs : AlarmNo → Regs3
  | .one => ⟨.alarm1Seconds, .alarm1Minutes, .alarm1Hours⟩
  | .two => ⟨.alarm2Seconds, .alarm2Minutes, .alarm2Hours⟩

/-- A Time from the answer to a read of seconds, minutes and hours (R110, R117, R121). -/
def Params.decodeTime (p : Params) (rs : Regs3) : Option Bytes3 → Fetched Time
  | none => .failed
  | some b =>
    p.decThen rs.r1 b.b1 fun s => p.decThen rs.r2 b.b2 fun m => p.decThen rs.r3 b.b3 fun h =>
      .got (timeOf h m s)

/-- A Date from the answer to a read of date, month and year (R110, R119). -/
def Params.decodeDate (p : Params) (rs : Regs3) : Option Bytes3 → Fetched Date
  | none => .failed
  | some b =>
    p.decThen rs.r1 b.b1 fun d => p.decThen rs.r2 b.b2 fun m => p.decThen rs.r3 b.b3 fun y =>
      .got ⟨d, m, y⟩

/-! ### Operands of the setters (R111) -/

/-- hour < 24, minute < 60, second < 60. -/
def validTime (h m s : BitVec 8) : Bool :=
  decide (h.toNat < 24) && decide (m.toNat < 60) && decide (s.toNat < 60)

/-- The Time of a setter's operands, where they are valid. -/
def setterTime (h m s : BitVec 8) : Option Time :=
  if validTime h m s then some (timeOf h.toNat m.toNat s.toNat) else none

/-- day in 1..31, month in 1..12, year in 2000..2099; the day is not checked against the month. -/
def validDate (day : BitVec 5) (month : BitVec 4) (year : BitVec 17) : Bool :=
  decide (1 ≤ day.toNat) && decide (day.toNat ≤ 31) && decide (1 ≤ month.toNat) &&
    decide (month.toNat ≤ 12) && decide (2000 ≤ year.toNat) && decide (year.toNat ≤ 2099)

/-- The Date of a setter's operands, where they are valid. -/
def setterDate (day : BitVec 5) (month : BitVec 4) (year : BitVec 17) : Option Date :=
  if validDate day month year then some ⟨day.toNat, month.toNat, year.toNat⟩ else none

/-! ### The Time operand of format X (R62) -/

/-- The operand as a Time, where it is a legal one. -/
def operandTime (h : BitVec 5) (m s : BitVec 6) : Option Time :=
  if h.toNat < 24 ∧ m.toNat < 60 ∧ s.toNat < 60 then some (timeOf h.toNat m.toNat s.toNat) else none

/-! ### The display frame (R52) -/

/-- `frame(e) = {e.lb, e.ub, e.dots, e.seg}`. -/
def frame (e : GridEntry) : Frame :=
  BitVec.ofNat 17
    (bitNat e.lb * 2 ^ 16 + bitNat e.ub * 2 ^ 15 + bitNat e.dots * 2 ^ 14 + e.seg.toNat)

end Sys2Proof
end

