-- ==== Sys2Proof/Machine/State.lean ====
section
/-! DEFINITION. The state of the block: every cell of spec/10_state.md grouped by unit, the parameters of
this machine, the inputs the environment supplies, and the records the model keeps. `State.reset` is the
state right after reset (R185, R186). All of it is plain data. -/

namespace Sys2Proof.Machine

/-! ### Why a step stops -/

/-- The faults at which the machine stops: none, since no outcome halts the block and no state is final (R170,
R184). The block's own fault, `RtcBadData`, stops nothing (R167): it is a record in the next state. -/
inductive Fault where
  deriving DecidableEq, Repr

/-- The refusals at which the machine stops. The block's own refusals (R168) stop nothing: they are a bit
in the next state (log 7). -/
inductive Refusal where
  /-- An instruction with no meaning yet, by its mnemonic; raised by `exec` alone. SAFE: nothing is
  claimed of it. No arm of this model raises it. -/
  | notModelled (mnemonic : String)
  deriving DecidableEq, Repr

/-! ### What a Host command returns (R166) -/

/-- A value a command returns (R9). -/
inductive Value where
  /-- A command with no result. -/
  | unit
  /-- One bit: `REC.ISONLINE`. -/
  | bit (b : Bool)
  /-- A Boolean: writes, probes and setters. -/
  | bool (b : Bool)
  /-- An integer: `DSP.GETCMP`. -/
  | number (n : Nat)
  /-- An 8-bit value: `REC.STATUS`. -/
  | status (b : BitVec 8)
  /-- A Time: the `TIME` commands and `REC.READ`. -/
  | time (t : Time)
  /-- `RTC.RDREG`. -/
  | optByte (b : Option Byte)
  /-- `RTC.GETTIME` and `RTC.GETAL1`, `RTC.GETAL2`. -/
  | optTime (t : Option Time)
  /-- `RTC.GETDATE`. -/
  | optDate (d : Option Date)
  deriving DecidableEq, Repr

/-- The fault record `RtcBadData(reg, byte)` with the agent that took it (R167). -/
structure FaultRecord where
  agent : Agent
  reg : RtcReg
  byte : Byte
  deriving DecidableEq, Repr

/-- The two refusals of a command word (R168). -/
inductive RefusedWord where
  /-- Code 1: the word is no command (R72). -/
  | reservedEncoding (w : Command)
  /-- Code 2: the value is above the channel's range (R152, R155). -/
  | valueRange (w : Command)
  deriving DecidableEq, Repr

/-- The outcome of the Host's latest command word (R166). -/
inductive HostOutcome where
  /-- The Host has issued no word since reset. -/
  | nothing
  | result (v : Value)
  | fault (f : FaultRecord)
  | refuse (q : RefusedWord)
  deriving DecidableEq, Repr

/-! ### Traces -/

/-- The output lines of the display unit (R16). -/
inductive Pin where
  | digEn (k : Fin 6)
  | srData
  | srClk
  | srStrobe
  | boostEn
  | heaterEn
  deriving DecidableEq, Repr

/-- One pin event `pin := level` (R95). -/
structure PinEvent where
  pin : Pin
  level : Bool
  deriving DecidableEq, Repr

/-- One item of the traffic the block drives on the RTC bus (R104 to R108). -/
inductive BusItem where
  /-- The begin of a transaction (R104). -/
  | start
  | read (addr : Byte)
  | write (addr byte : Byte)
  | probe
  /-- The end of a transaction: the bus is released (R104). -/
  | stop
  deriving DecidableEq, Repr

/-! ### The cells of the block -/

/-- The display unit (R12 to R18). `none` in `grid` is `unwritten`. -/
structure Display where
  grid : Six (Option GridEntry)
  gridPend : Six (Option GridEntry)
  muxIdx : Fin 6
  srStage : Frame
  srLatch : Frame
  digEn : Six Bool
  srData : Bool
  srClk : Bool
  srStrobe : Bool
  boostEn : Bool
  heaterEn : Bool
  dispEnabled : Bool
  brightCmp : Nat
  deriving DecidableEq, Repr

/-- The values of `recPc` (R19). -/
inductive RecPc where
  | bSqw
  | bInt
  | bA1f
  | bA2f
  | bRdt
  | bRda1
  | bRda2
  | bFix1
  | bFix2
  | bCommit
  | sRead
  | sCommit
  | sEval
  deriving DecidableEq, Repr

/-- The pending slots of one cache, one for each writer (R22). -/
structure Pending where
  host : Option Time
  recTask : Option Time
  deriving DecidableEq, Repr

/-- The RTC unit (R19 to R27). `none` in a temporary is `unwritten`. -/
structure RtcUnit where
  recPc : RecPc
  tmpTime : Option Time
  tmpAl1 : Option Time
  tmpAl2 : Option Time
  clockTime : Time
  alarmTime1 : Time
  alarmTime2 : Time
  clockPend : Pending
  al1Pend : Pending
  al2Pend : Pending
  online : Bool
  ready : Bool
  alarmMode : AlarmMode
  alarmState : AlarmState
  trigLatch : Bool
  deriving DecidableEq, Repr

/-- One LED channel (R28). -/
structure Channel where
  level : Nat
  target : Nat
  duty : Nat
  run : Bool
  deriving DecidableEq, Repr

/-- `flashCol` (R29): `None` is `dark`. -/
inductive FlashCol where
  | dark
  | green
  | red
  deriving DecidableEq, Repr

/-- The LED unit (R28 to R30). -/
structure LedUnit where
  chan : Six Channel
  stlAl1 : Bool
  stlAl2 : Bool
  flashCol : FlashCol
  flashLeft : Nat
  stripOn : Bool
  stripB : Nat
  stripCct : Nat
  deriving DecidableEq, Repr

/-- The reference simulator `SimRtc` (R109): its register bytes, and the outcomes of the transactions to
come (`true` is `ok`; where the script has ended, `ok`). -/
structure SimRtc where
  simReg : Memory
  script : List Bool
  deriving DecidableEq, Repr

/-- What the environment supplies (the model's own fields). Each list is taken first, oldest first; where it
has ended, the value is free (log 1, log 2, log 9). -/
structure Inputs where
  /-- The agents that step next (R48, R174). -/
  sched : List Agent
  /-- The command words the Host presents next (R178). -/
  words : List Command
  /-- The oracle's answers to the reads to come (R105); a one-register read takes the first byte. -/
  reads : List (Option Bytes3)
  /-- The oracle's answers to the writes and probes to come (R106, R108). -/
  acks : List Bool
  /-- `none`: the general oracle of R103. `some`: the reference simulator of R109. -/
  sim : Option SimRtc
  /-- How many free values the run has taken (log 3). -/
  draws : Nat
  deriving DecidableEq, Repr

/-- The records of the model: `faults` and `refused` (R32), the Host's outcome (R166), and the traces of the
pins (R95) and of the bus (R104). -/
structure Record where
  faults : List FaultRecord
  refused : Bool
  outcome : HostOutcome
  pins : List PinEvent
  bus : List BusItem
  deriving DecidableEq, Repr

/-- The state of the block. -/
structure State where
  /-- The parameters (R6): no step changes them. -/
  cfg : Params
  inp : Inputs
  disp : Display
  rtc : RtcUnit
  led : LedUnit
  out : Record
  deriving DecidableEq, Repr

/-! ### Reset (R185, R186) -/

/-- The display unit after reset, for given reset draws. -/
def Display.reset (p : Params) (mux : Fin 6) (stage latch : Frame) : Display where
  grid := Six.fill none
  gridPend := Six.fill none
  muxIdx := mux
  srStage := stage
  srLatch := latch
  digEn := Six.fill false
  srData := false
  srClk := false
  srStrobe := false
  boostEn := false
  heaterEn := false
  dispEnabled := false
  brightCmp := p.brightCmpReset

/-- `Time(0,0,0)`. -/
def midnight : Time := ⟨0, 0, 0⟩

/-- The RTC unit after reset. -/
def RtcUnit.reset : RtcUnit where
  recPc := .bSqw
  tmpTime := none
  tmpAl1 := none
  tmpAl2 := none
  clockTime := midnight
  alarmTime1 := midnight
  alarmTime2 := midnight
  clockPend := ⟨none, none⟩
  al1Pend := ⟨none, none⟩
  al2Pend := ⟨none, none⟩
  online := false
  ready := false
  alarmMode := .both
  alarmState := .off
  trigLatch := false

/-- The LED unit after reset. -/
def LedUnit.reset (p : Params) : LedUnit where
  chan := Six.fill ⟨0, 0, 0, false⟩
  stlAl1 := false
  stlAl2 := false
  flashCol := .dark
  flashLeft := 0
  stripOn := p.stripOnReset
  stripB := p.stripBReset
  stripCct := p.stripCctReset

/-- Nothing placed by the environment, the general oracle, no free value taken yet. -/
def Inputs.reset : Inputs := ⟨[], [], [], [], none, 0⟩

/-- Nothing recorded. -/
def Record.reset : Record := ⟨[], false, .nothing, [], []⟩

/-- The reset state of R186, for given parameters and given reset draws. -/
def State.resetWith (p : Params) (mux : Fin 6) (stage latch : Frame) : State where
  cfg := p
  inp := Inputs.reset
  disp := Display.reset p mux stage latch
  rtc := RtcUnit.reset
  led := LedUnit.reset p
  out := Record.reset

/-- The machine right after reset (R185, R186): the OPEN parameters and the three reset draws are free. -/
def State.reset : State :=
  State.resetWith Config.params Config.resetMuxIdx Config.resetStage Config.resetLatch

end Sys2Proof.Machine
end

