-- ==== Sys2Proof/Machine/Ops.lean ====
section
/-! DEFINITION. The named operations on the state that every rule is written with: the update of one unit,
the outcomes of a Host command and the records of a fault and of a refusal (R166 to R168), free values
(R9), byte memory, the two-phase write and the torn read (R37 to R40), and the pin trace (R95). -/

namespace Sys2Proof.Machine

/-! ### One unit replaced -/

/-- `s` with other inputs. -/
def State.withInp (s : State) (x : Inputs) : State := { s with inp := x }

/-- `s` with another display unit. -/
def State.withDisp (s : State) (x : Display) : State := { s with disp := x }

/-- `s` with another RTC unit. -/
def State.withRtc (s : State) (x : RtcUnit) : State := { s with rtc := x }

/-- `s` with another LED unit. -/
def State.withLed (s : State) (x : LedUnit) : State := { s with led := x }

/-- `s` with other records. -/
def State.withOut (s : State) (x : Record) : State := { s with out := x }

/-! ### Outcomes (R166 to R168) -/

/-- The Host's command returned `v` (R9, R166). -/
def State.answer (s : State) (v : Value) : State := s.withOut { s.out with outcome := .result v }

/-- Taking a fault: its record is appended to `faults` and no cell of the block is written (R167). There is
no handler, no saved state and no return (R166, R175, R176). -/
def State.takeFault (s : State) (f : FaultRecord) : State :=
  s.withOut { s.out with faults := s.out.faults ++ [f] }

/-- A Host command that ends in a fault returns no result (R110, R167). -/
def State.hostFault (s : State) (reg : RtcReg) (byte : Byte) : State :=
  let s1 := s.takeFault ⟨.host, reg, byte⟩
  s1.withOut { s1.out with outcome := .fault ⟨.host, reg, byte⟩ }

/-- A refused command word: `refused <- 1`, and no cell of the block is written (R72, R168). -/
def State.refuse (s : State) (q : RefusedWord) : State :=
  s.withOut { s.out with refused := true, outcome := .refuse q }

/-! ### Free values and the environment's lists -/

/-- `k` free values have been taken (log 3). -/
def State.drawn (s : State) (k : Nat) : State := s.withInp { s.inp with draws := s.inp.draws + k }

/-- The agent that steps next: the environment's, or a free one (R48, R174). -/
def State.nextAgent (s : State) : Agent × State :=
  match s.inp.sched with
  | a :: rest => (a, s.withInp { s.inp with sched := rest })
  | [] => (Config.freeAgent s.inp.draws, s.drawn 1)

/-- What the Host presents next: the environment's word, or a free choice of any word or none (R178). -/
def State.nextWord (s : State) : Option Command × State :=
  match s.inp.words with
  | w :: rest => (some w, s.withInp { s.inp with words := rest })
  | [] => (Config.freeWord s.inp.draws, s.drawn 1)

/-- The oracle's answer to a read (R103): the environment's, or a free one. -/
def State.askRead (s : State) : Option Bytes3 × State :=
  match s.inp.reads with
  | r :: rest => (r, s.withInp { s.inp with reads := rest })
  | [] => (Config.freeRead s.inp.draws, s.drawn 1)

/-- The oracle's answer to a write or a probe (R103): the environment's, or a free one. -/
def State.askAck (s : State) : Bool × State :=
  match s.inp.acks with
  | b :: rest => (b, s.withInp { s.inp with acks := rest })
  | [] => (Config.freeAck s.inp.draws, s.drawn 1)

/-- The result of a setter with an invalid operand: `draw({false, true})`, and nothing else (R111). -/
def State.answerFree (s : State) : State :=
  (s.drawn 1).answer (.bool (Config.freeResult s.inp.draws))

/-! ### Byte memory -/

/-- What an address no pair lists reads as (log 10). -/
def blankByte : Byte := 0x00

/-- The byte at `a`. -/
def Memory.read : Memory → Nat → Byte
  | [], _ => blankByte
  | c :: rest, a => if c.1 = a then c.2 else Memory.read rest a

/-- `m` with `x` at `a`, in canonical form again. -/
def Memory.write : Memory → Nat → Byte → Memory
  | [], a, x => if x = blankByte then [] else [(a, x)]
  | c :: rest, a, x =>
    if a < c.1 then (if x = blankByte then c :: rest else (a, x) :: c :: rest)
    else if a = c.1 then (if x = blankByte then rest else (a, x) :: rest)
    else c :: Memory.write rest a x

/-- Every address of the memory is above `a`. -/
def Memory.above (a : Nat) : Memory → Bool
  | [] => true
  | c :: _ => decide (a < c.1)

/-- The canonical form: addresses strictly rising, and no pair equal to what an unlisted address reads as. -/
def Memory.wf : Memory → Bool
  | [] => true
  | c :: rest => decide (c.2 ≠ blankByte) && Memory.above c.1 rest && Memory.wf rest

/-! ### Two-phase writes (R38, R39) -/

/-- Phase 1 of `grid[k] <=2 e` (R39). -/
def State.pendGrid (s : State) (k : Fin 6) (e : GridEntry) : State :=
  s.withDisp { s.disp with gridPend := s.disp.gridPend.set k (some e) }

/-- The slot of a writer set to `t` (R22): only `Host` and `RecTask` have one. -/
def Pending.put (p : Pending) (a : Agent) (t : Option Time) : Pending :=
  match a with
  | .host => { p with host := t }
  | .recTask => { p with recTask := t }
  | .muxIsr => p
  | .ledTimer => p

/-- Phase 1 of `cache[c] <=2 t` by agent `a` (R39). -/
def State.pendCache (s : State) (a : Agent) (c : CacheSel) (t : Time) : State :=
  match c with
  | .clock => s.withRtc { s.rtc with clockPend := s.rtc.clockPend.put a (some t) }
  | .al1 => s.withRtc { s.rtc with al1Pend := s.rtc.al1Pend.put a (some t) }
  | .al2 => s.withRtc { s.rtc with al2Pend := s.rtc.al2Pend.put a (some t) }

/-- Some grid entry has a pending write (R13). -/
def Display.anyPend (d : Display) : Bool :=
  d.gridPend.d0.isSome || d.gridPend.d1.isSome || d.gridPend.d2.isSome || d.gridPend.d3.isSome ||
    d.gridPend.d4.isSome || d.gridPend.d5.isSome

/-- `Host` has taken phase 1 of a two-phase write: its next step is phase 2 (R39, R178). -/
def State.hostPending (s : State) : Bool :=
  s.disp.anyPend || s.rtc.clockPend.host.isSome || s.rtc.al1Pend.host.isSome ||
    s.rtc.al2Pend.host.isSome

/-- `RecTask` has taken phase 1 of a two-phase write: its next step is phase 2 (R126). -/
def State.recPending (s : State) : Bool :=
  s.rtc.clockPend.recTask.isSome || s.rtc.al1Pend.recTask.isSome || s.rtc.al2Pend.recTask.isSome

/-- The entry after phase 2: the pending one where there is one (R39). -/
def commitEntry (pend cell : Option GridEntry) : Option GridEntry := pend.or cell

/-- The RTC unit after phase 2 of every pending write of agent `a` (R39). -/
def RtcUnit.commit (r : RtcUnit) (a : Agent) : RtcUnit :=
  match a with
  | .host =>
    { r with
      clockTime := r.clockPend.host.getD r.clockTime
      alarmTime1 := r.al1Pend.host.getD r.alarmTime1
      alarmTime2 := r.al2Pend.host.getD r.alarmTime2
      clockPend := r.clockPend.put .host none
      al1Pend := r.al1Pend.put .host none
      al2Pend := r.al2Pend.put .host none }
  | .recTask =>
    { r with
      clockTime := r.clockPend.recTask.getD r.clockTime
      alarmTime1 := r.al1Pend.recTask.getD r.alarmTime1
      alarmTime2 := r.al2Pend.recTask.getD r.alarmTime2
      clockPend := r.clockPend.put .recTask none
      al1Pend := r.al1Pend.put .recTask none
      al2Pend := r.al2Pend.put .recTask none }
  | .muxIsr => r
  | .ledTimer => r

/-- Phase 2 of the Host's pending writes: `X <- v; XPend[Host] <- none` (R39). -/
def State.commitHost (s : State) : State :=
  (s.withDisp
    { s.disp with
      grid := Six.zip commitEntry s.disp.gridPend s.disp.grid
      gridPend := Six.fill none }).withRtc (s.rtc.commit .host)

/-- Phase 2 of the pending writes of `RecTask` (R39). -/
def State.commitRec (s : State) : State := s.withRtc (s.rtc.commit .recTask)

/-! ### Reads, torn while another agent's write is pending (R37, R40) -/

/-- One field of a torn read: the current value or one of the pending ones, whichever (R40). -/
def tornField {α : Type} (x : α) (others : List α) (n : Nat) : α :=
  (x :: others).getD (Config.freePick n % (others.length + 1)) x

/-- The values pending from agents other than the reader; its own is not visible to it (R40). -/
def Pending.others (p : Pending) (reader : Agent) : List Time :=
  match reader with
  | .host => p.recTask.toList
  | .recTask => p.host.toList
  | .muxIsr => p.host.toList ++ p.recTask.toList
  | .ledTimer => p.host.toList ++ p.recTask.toList

/-- The current value of a cache (R34). -/
def RtcUnit.cache (r : RtcUnit) : CacheSel → Time
  | .clock => r.clockTime
  | .al1 => r.alarmTime1
  | .al2 => r.alarmTime2

/-- The pending slots of a cache (R22). -/
def RtcUnit.pend (r : RtcUnit) : CacheSel → Pending
  | .clock => r.clockPend
  | .al1 => r.al1Pend
  | .al2 => r.al2Pend

/-- A Time each of whose fields is torn by itself (R40). -/
def tornTime (x : Time) (others : List Time) (n : Nat) : Time where
  h := tornField x.h (others.map (·.h)) n
  m := tornField x.m (others.map (·.m)) (n + 1)
  s := tornField x.s (others.map (·.s)) (n + 2)

/-- `MemRead(cache, c)` by `reader` (R37). -/
def State.readCache (s : State) (reader : Agent) (c : CacheSel) : Time × State :=
  match (s.rtc.pend c).others reader with
  | [] => (s.rtc.cache c, s)
  | v :: vs => (tornTime (s.rtc.cache c) (v :: vs) s.inp.draws, s.drawn 3)

/-- A grid entry each of whose fields is torn by itself (R40). -/
def tornEntry (x v : GridEntry) (n : Nat) : GridEntry where
  seg := tornField x.seg [v.seg] n
  dots := tornField x.dots [v.dots] (n + 1)
  ub := tornField x.ub [v.ub] (n + 2)
  lb := tornField x.lb [v.lb] (n + 3)

/-- `MemRead(grid, k)` by `MuxIsr` (R37); `none` is `unwritten`. While a write to an unwritten entry is
pending, each field may hold any value (R40). -/
def State.readGrid (s : State) (k : Fin 6) : Option GridEntry × State :=
  match s.disp.gridPend.get k with
  | none => (s.disp.grid.get k, s)
  | some v =>
    match s.disp.grid.get k with
    | some x => (some (tornEntry x v s.inp.draws), s.drawn 4)
    | none => (some (Config.freeEntry s.inp.draws), s.drawn 1)

/-- What `RecTask` reads from a temporary (R20): its value, or a free Time where nothing has written it, which
R140 says cannot happen (DESIGN CHOICE, log 15). -/
def State.readTemporary (s : State) (x : Option Time) : Time × State :=
  match x with
  | some t => (t, s)
  | none => (Config.freeTime s.inp.draws, s.drawn 1)

/-! ### Pins (R16, R95) -/

/-- The pin events recorded, oldest first. -/
def State.trace (s : State) (es : List PinEvent) : State :=
  s.withOut { s.out with pins := s.out.pins ++ es }

/-- The six events that put every digit-enable line low, in ascending order (R87, R95). -/
def blankEvents : List PinEvent :=
  [0, 1, 2, 3, 4, 5].map fun k => ⟨.digEn k, false⟩

end Sys2Proof.Machine
end

