-- ==== Sys2Proof/Machine/Dsp.lean ====
section
/-! DEFINITION. The display commands of `Host`: `DSP.WRGRID` (R85), `DSP.SETBRIGHT` (R96), `DSP.GETCMP`
(R97), `DSP.ENABLE` (R100) and `DSP.DISABLE` (R101). None can fail (R102). -/

namespace Sys2Proof.Machine

/-- `DSP.WRGRID` (R85): phase 1 of `grid[idx] <=2 e`. -/
def execDspWrgrid (idx : Fin 6) (seg : BitVec 14) (dots ub lb : Bool) (s : State) :
    Host.Outcome State Fault Refusal :=
  .next ((s.pendGrid idx ⟨seg, dots, ub, lb⟩).answer .unit)

/-- The compare value of a percentage in 1..100 (R96): linear between the ends, truncating toward zero. -/
def brightValue (p : Params) (pct : Nat) : Nat :=
  ((p.cmpAt1 : Int) + Int.tdiv (((pct : Int) - 1) * ((p.cmpAt100 : Int) - (p.cmpAt1 : Int))) 99).toNat

/-- `DSP.SETBRIGHT` (R96): a percentage outside 1..100 is a silent no-op. -/
def execDspSetbright (pct : BitVec 7) (s : State) : Host.Outcome State Fault Refusal :=
  .next
    ((if pct.toNat < 1 ∨ 100 < pct.toNat then s
      else s.withDisp { s.disp with brightCmp := brightValue s.cfg pct.toNat }).answer .unit)

/-- `DSP.GETCMP` (R97). -/
def execDspGetcmp (s : State) : Host.Outcome State Fault Refusal :=
  .next (s.answer (.number s.disp.brightCmp))

/-- The display pair and the timer switched on: heater, boost, timer (R100, D15). -/
def State.displayOn (s : State) : State :=
  (s.withDisp { s.disp with heaterEn := true, boostEn := true, dispEnabled := true }).trace
    [⟨.heaterEn, true⟩, ⟨.boostEn, true⟩]

/-- The timer stopped, every digit line cleared, boost and heater off (R101, D15). -/
def State.displayOff (s : State) : State :=
  (s.withDisp
    { s.disp with
      dispEnabled := false
      digEn := Six.fill false
      boostEn := false
      heaterEn := false }).trace (blankEvents ++ [⟨.boostEn, false⟩, ⟨.heaterEn, false⟩])

/-- `DSP.ENABLE` (R100): idempotent. -/
def execDspEnable (s : State) : Host.Outcome State Fault Refusal :=
  .next ((if s.disp.dispEnabled then s else s.displayOn).answer .unit)

/-- `DSP.DISABLE` (R101): idempotent. -/
def execDspDisable (s : State) : Host.Outcome State Fault Refusal :=
  .next ((if s.disp.dispEnabled then s.displayOff else s).answer .unit)

end Sys2Proof.Machine
end

