-- ==== Sys2Proof/Machine/Led.lean ====
section
/-! DEFINITION. The `PWM`, `LED`, `STL` and `STRIP` commands of `Host` (R152 to R155, R160 to R165). -/

namespace Sys2Proof.Machine

/-- One channel changed (R28). -/
def State.setChannel (s : State) (c : Fin 6) (x : Channel) : State :=
  s.withLed { s.led with chan := s.led.chan.set c x }

/-- `PWM.SETDUTY` (R152): above `DUTY_MAX` the word is refused. -/
def execPwmSetduty (ch : Fin 6) (val : BitVec 16) (s : State) : Host.Outcome State Fault Refusal :=
  .next
    (if s.cfg.dutyMax < val.toNat then s.refuse (.valueRange (encode (.pwmSetduty ch val)))
     else (s.setChannel ch { s.led.chan.get ch with duty := val.toNat }).answer .unit)

/-- `PWM.START` (R153). -/
def execPwmStart (ch : Fin 6) (s : State) : Host.Outcome State Fault Refusal :=
  .next ((s.setChannel ch { s.led.chan.get ch with run := true }).answer .unit)

/-- `PWM.STOP` (R154). -/
def execPwmStop (ch : Fin 6) (s : State) : Host.Outcome State Fault Refusal :=
  .next ((s.setChannel ch { s.led.chan.get ch with run := false }).answer .unit)

/-- `LED.SETLEVEL` (R155): above `LEVEL_MAX` the word is refused. -/
def execLedSetlevel (ch : Fin 6) (val : BitVec 16) (s : State) : Host.Outcome State Fault Refusal :=
  .next
    (if s.cfg.levelMax < val.toNat then s.refuse (.valueRange (encode (.ledSetlevel ch val)))
     else (s.setChannel ch { s.led.chan.get ch with target := val.toNat }).answer .unit)

/-- `STL.FRAMECLR` (R160). -/
def execStlFrameclr (s : State) : Host.Outcome State Fault Refusal :=
  .next ((s.withLed { s.led with stlAl1 := false, stlAl2 := false }).answer .unit)

/-- `STL.ALARMLEDS` (R161). -/
def execStlAlarmleds (a1 a2 : Bool) (s : State) : Host.Outcome State Fault Refusal :=
  .next ((s.withLed { s.led with stlAl1 := a1, stlAl2 := a2 }).answer .unit)

/-- The flash colour a command asks for, as `flashCol` holds it (R29, R68). -/
def FlashColour.shown : FlashColour → FlashCol
  | .green => .green
  | .red => .red

/-- `STL.FLASH` (R162). -/
def execStlFlash (col : FlashColour) (s : State) : Host.Outcome State Fault Refusal :=
  .next
    ((s.withLed { s.led with flashCol := FlashColour.shown col, flashLeft := s.cfg.flashTicks }).answer
      .unit)

/-- The linear warm target (R163). -/
def warmLinear (p : Params) (b cct : Nat) : Nat := b * (p.cctMax - cct) / p.cctMax

/-- The linear cold target (R163). -/
def coldLinear (p : Params) (b cct : Nat) : Nat := b * cct / p.cctMax

/-- The warm and cold targets of a strip that is on: `CCT_MIX` (R6, R163). -/
def mixOf (p : Params) (b cct : Nat) : Nat × Nat :=
  match p.cctMix with
  | .linear => (warmLinear p b cct, coldLinear p b cct)
  | .table rows => (rows.getD b []).getD cct (0, 0)

/-- The targets the strip mix gives channels 4 and 5 (R163). -/
def LedUnit.stripTargets (p : Params) (l : LedUnit) : Nat × Nat :=
  if l.stripOn then mixOf p l.stripB l.stripCct else (0, 0)

/-- The strip mix (R163). -/
def LedUnit.mixed (p : Params) (l : LedUnit) : LedUnit :=
  let t := LedUnit.stripTargets p l
  { l with
    chan := (l.chan.set 4 { l.chan.get 4 with target := t.1 }).set 5
      { l.chan.get 5 with target := t.2 } }

/-- `STRIP.TOGGLE` (R164). -/
def execStripToggle (s : State) : Host.Outcome State Fault Refusal :=
  .next ((s.withLed (LedUnit.mixed s.cfg { s.led with stripOn := !s.led.stripOn })).answer .unit)

/-- `clamp(v + d * step, 0, top)` (R7, R165). -/
def nudged (v step top : Nat) (up : Bool) : Nat :=
  (min (max ((v : Int) + (if up then (step : Int) else -(step : Int))) 0) (top : Int)).toNat

/-- The strip parameter moved by its step (R165). -/
def LedUnit.nudge (p : Params) (l : LedUnit) (sel : StripSel) (up : Bool) : LedUnit :=
  match sel with
  | .brightness => { l with stripB := nudged l.stripB p.stripStepB p.stripBMax up }
  | .colour => { l with stripCct := nudged l.stripCct p.stripStepC p.cctMax up }

/-- `STRIP.NUDGE` (R165). -/
def execStripNudge (sel : StripSel) (up : Bool) (s : State) : Host.Outcome State Fault Refusal :=
  .next ((s.withLed (LedUnit.mixed s.cfg (LedUnit.nudge s.cfg s.led sel up))).answer .unit)

end Sys2Proof.Machine
end

