-- ==== Sys2Proof/Machine/TimeArith.lean ====
section
/-! DEFINITION. Time arithmetic (R10, R76 to R83), used by the `TIME` commands, the fallback clock (R137),
the alarm match (R139) and the normalisation (R135). -/

namespace Sys2Proof.Machine

/-- `tod(t)` (R10). -/
def tod (t : Time) : Nat := 3600 * t.h.val + 60 * t.m.val + t.s.val

/-- `fromTod(x)`, with the non-negative `mod 86400` (R7, R10). -/
def fromTod (x : Int) : Time :=
  let y := (x % 86400).toNat
  timeOf (y / 3600) (y % 3600 / 60) (y % 60)

/-- A field moved by `d` with the non-negative `mod n` of R7. -/
def wrapped (n : Nat) (v : Nat) (d : Int) : Nat := (((v : Int) + d) % (n : Int)).toNat

/-- addHours (R78). -/
def addHours (t : Time) (n : Nat) : Time := { t with h := Fin.ofNat 24 (wrapped 24 t.h.val n) }

/-- subHours (R80). -/
def subHours (t : Time) (n : Nat) : Time := { t with h := Fin.ofNat 24 (wrapped 24 t.h.val (-n)) }

/-- Minutes moved by `d`, carrying into the hour or not (R79, R81). -/
def moveMinutes (carry : Bool) (t : Time) (d : Int) : Time :=
  if carry then fromTod (tod t + 60 * d) else { t with m := Fin.ofNat 60 (wrapped 60 t.m.val d) }

/-- addMinutes (R79). -/
def addMinutes (carry : Bool) (t : Time) (n : Nat) : Time := moveMinutes carry t n

/-- subMinutes (R81). -/
def subMinutes (carry : Bool) (t : Time) (n : Nat) : Time := moveMinutes carry t (-n)

/-- addSeconds (R82): always carries. -/
def addSeconds (t : Time) (n : Nat) : Time := fromTod (tod t + n)

/-- norm5 (R83): the minute to the lower multiple of 5. -/
def norm5 (t : Time) : Time := { t with m := Fin.ofNat 60 (t.m.val - t.m.val % 5) }

/-- `eq(a, b)` (R77). -/
def timeEq (a b : Time) : Bool := decide (a.h = b.h) && decide (a.m = b.m) && decide (a.s = b.s)

/-- `eqHM(a, b)` (R77): the comparison of the alarm match. -/
def eqHM (a b : Time) : Bool := decide (a.h = b.h) && decide (a.m = b.m)

end Sys2Proof.Machine
end

