-- ==== Sys2Proof/Machine/Flags.lean ====
section
/-! DEFINITION. The block's flags and status bits, each computed in one place: the steady bit and the
`REC.STATUS` byte (R31, R149), the armed alarms and the alarm match (R139), the edge latch (R27, R139), and
the status colour (R158). -/

namespace Sys2Proof.Machine

/-- `recPc` is an `S_` value (R31). -/
def RecPc.steady : RecPc → Bool
  | .bSqw => false
  | .bInt => false
  | .bA1f => false
  | .bA2f => false
  | .bRdt => false
  | .bRda1 => false
  | .bRda2 => false
  | .bFix1 => false
  | .bFix2 => false
  | .bCommit => false
  | .sRead => true
  | .sCommit => true
  | .sEval => true

/-- The 8-bit value of `REC.STATUS` (R149):
`{latch, steady, ready, online, alarmState[1:0], alarmMode[1:0]}`. -/
def RtcUnit.statusByte (r : RtcUnit) : BitVec 8 :=
  BitVec.ofNat 8
    (bitNat r.trigLatch * 2 ^ 7 + bitNat r.recPc.steady * 2 ^ 6 + bitNat r.ready * 2 ^ 5 +
      bitNat r.online * 2 ^ 4 + r.alarmState.code * 2 ^ 2 + r.alarmMode.code)

/-- Alarm `n` is armed in a mode (R139): the mode is `Alarm<n>` or `Both`. -/
def AlarmMode.arms (m : AlarmMode) (n : AlarmNo) : Bool :=
  match n with
  | .one => decide (m = .alarm1) || decide (m = .both)
  | .two => decide (m = .alarm2) || decide (m = .both)

/-- `match` of `S_EVAL` (R139), of the clock and the two alarm times as read. -/
def alarmMatch (p : Params) (mode : AlarmMode) (c a1 a2 : Time) : Bool :=
  (AlarmMode.arms mode .one && eqHM c (subMinutes p.timeMinuteCarry a1 p.alarmLeadMin)) ||
    (AlarmMode.arms mode .two && eqHM c (subMinutes p.timeMinuteCarry a2 p.alarmLeadMin))

/-- The edge latch and the alarm state after an evaluation (R139). -/
def RtcUnit.latchAlarm (r : RtcUnit) (hit : Bool) : RtcUnit :=
  if hit then
    if r.trigLatch then r
    else
      { r with
        trigLatch := true
        alarmState := if r.alarmState = .off then .sunrise else r.alarmState }
  else { r with trigLatch := false }

/-- The status colour of an LED tick (R158): a flash first, then the offline tint. -/
def statusColour (led : LedUnit) (online : Bool) : FlashCol :=
  if led.flashLeft > 0 then led.flashCol else if online then .dark else .red

end Sys2Proof.Machine
end

