-- ==== Sys2Proof/Machine/Bus.lean ====
section
/-! DEFINITION. The RTC bus (R103 to R109): the general oracle and the reference simulator, the begin and
the end of a transaction, and the four bus primitives. Every request is recorded in `bus`. -/

namespace Sys2Proof.Machine

/-- Who answers inside one transaction: the general oracle (R103), or `SimRtc` with the scripted outcome of
this transaction (R109). -/
inductive Link where
  | oracle
  | simOk
  | simFail
  deriving DecidableEq, Repr

/-- The traffic recorded, oldest first. -/
def State.drive (s : State) (xs : List BusItem) : State :=
  s.withOut { s.out with bus := s.out.bus ++ xs }

/-- The begin of a transaction (R104); `SimRtc` takes the outcome of its script, `ok` where it has ended. -/
def State.busStart (s : State) : Link × State :=
  let s1 := s.drive [.start]
  match s.inp.sim with
  | none => (.oracle, s1)
  | some c =>
    match c.script with
    | [] => (.simOk, s1)
    | ok :: rest =>
      (if ok then .simOk else .simFail, s1.withInp { s1.inp with sim := some { c with script := rest } })

/-- The end of a transaction, performed on every path (R104). -/
def State.busStop (s : State) : State := s.drive [.stop]

/-- The byte `SimRtc` holds at a bus address (R109). -/
def State.simByte (s : State) (a : Byte) : Byte :=
  match s.inp.sim with
  | some c => Memory.read c.simReg a.toNat
  | none => blankByte

/-- The bytes of a write stored one after the other. -/
def storeItems (m : Memory) (items : List (Byte × Byte)) : Memory :=
  items.foldl (fun m it => Memory.write m it.1.toNat it.2) m

/-- `SimRtc` stores the bytes of a write (R109). -/
def State.simStore (s : State) (items : List (Byte × Byte)) : State :=
  match s.inp.sim with
  | some c => s.withInp { s.inp with sim := some { c with simReg := storeItems c.simReg items } }
  | none => s

/-- One register read inside a transaction (R105, R107). -/
def State.readOne (s : State) (l : Link) (a : Byte) : Option Byte × State :=
  let s1 := s.drive [.read a]
  match l with
  | .oracle => ((s1.askRead).1.map (·.b1), (s1.askRead).2)
  | .simOk => (some (s1.simByte a), s1)
  | .simFail => (none, s1)

/-- Three registers read inside a transaction: all or none (R105). -/
def State.readThree (s : State) (l : Link) (a1 a2 a3 : Byte) : Option Bytes3 × State :=
  let s1 := s.drive [.read a1, .read a2, .read a3]
  match l with
  | .oracle => s1.askRead
  | .simOk => (some ⟨s1.simByte a1, s1.simByte a2, s1.simByte a3⟩, s1)
  | .simFail => (none, s1)

/-- Bytes written inside a transaction, in order (R106). -/
def State.writeItems (s : State) (l : Link) (items : List (Byte × Byte)) : Bool × State :=
  let s1 := s.drive (items.map fun it => .write it.1 it.2)
  match l with
  | .oracle => s1.askAck
  | .simOk => (true, s1.simStore items)
  | .simFail => (false, s1)

/-- `b` with bit `i` replaced by `v` (R107). -/
def setBit (b : Byte) (i : Fin 8) (v : Bool) : Byte :=
  if v then b ||| BitVec.twoPow 8 i.val else b &&& ~~~(BitVec.twoPow 8 i.val)

/-- The read-modify-write of one bit inside a transaction: `false` only when the read failed; the answer to
the write-back is ignored (R107). -/
def State.rmwBit (s : State) (l : Link) (a : Byte) (i : Fin 8) (v : Bool) : Bool × State :=
  let r := s.readOne l a
  match r.1 with
  | none => (false, r.2)
  | some b => (true, (r.2.writeItems l [(a, setBit b i v)]).2)

/-- A probe inside a transaction (R108). -/
def State.probeChip (s : State) (l : Link) : Bool × State :=
  let s1 := s.drive [.probe]
  match l with
  | .oracle => s1.askAck
  | .simOk => (true, s1)
  | .simFail => (false, s1)

/-- A whole transaction: begin, its body, end on every path (R104). -/
def State.transaction {α : Type} (s : State) (body : Link → State → α × State) : α × State :=
  let b := s.busStart
  let r := body b.1 b.2
  (r.1, r.2.busStop)

/-- `BusRead(r)` of one register (R105). -/
def State.busRead1 (s : State) (r : RtcReg) : Option Byte × State :=
  s.transaction fun l s => s.readOne l (s.cfg.rtcAddr r)

/-- `BusRead(r1, r2, r3)` (R105). -/
def State.busRead3 (s : State) (rs : Regs3) : Option Bytes3 × State :=
  s.transaction fun l s =>
    s.readThree l (s.cfg.rtcAddr rs.r1) (s.cfg.rtcAddr rs.r2) (s.cfg.rtcAddr rs.r3)

/-- The bus addresses of a write's registers. -/
def Params.atAddrs (p : Params) (items : List (RtcReg × Byte)) : List (Byte × Byte) :=
  items.map fun it => (p.rtcAddr it.1, it.2)

/-- `BusWrite((r_1, b_1), ..., (r_n, b_n))` (R106). -/
def State.busWrite (s : State) (items : List (RtcReg × Byte)) : Bool × State :=
  s.transaction fun l s => s.writeItems l (Params.atAddrs s.cfg items)

/-- `BusRmw(addr, bit, v)` (R107). -/
def State.busRmw (s : State) (a : Byte) (i : Fin 8) (v : Bool) : Bool × State :=
  s.transaction fun l s => s.rmwBit l a i v

/-- `BusProbe()` (R108). -/
def State.busProbe (s : State) : Bool × State :=
  s.transaction fun l s => s.probeChip l

end Sys2Proof.Machine
end

