-- ==== Sys2Proof/Machine/RtcClient.lean ====
section
/-! DEFINITION. The functions of the RTC client that the `RTC` and `REC` commands of `Host` and the
micro-program of `RecTask` share (R110 to R124): getters, setters and flag toggles. -/

namespace Sys2Proof.Machine

/-- *GetTime* (R117): one transaction, and the answer decoded. -/
def State.getTime (s : State) : Fetched Time × State :=
  let r := s.busRead3 timeRegs
  (s.cfg.decodeTime timeRegs r.1, r.2)

/-- *GetDate* (R119). -/
def State.getDate (s : State) : Fetched Date × State :=
  let r := s.busRead3 dateRegs
  (s.cfg.decodeDate dateRegs r.1, r.2)

/-- *GetAlarm(n)* (R121). -/
def State.getAlarm (s : State) (n : AlarmNo) : Fetched Time × State :=
  let r := s.busRead3 (alarmRegs n)
  (s.cfg.decodeTime (alarmRegs n) r.1, r.2)

/-- The bytes *SetTime* writes (R54, R118). -/
def timeItems (p : Params) (t : Time) : List (RtcReg × Byte) :=
  [(.seconds, p.enc .seconds t.s.val), (.minutes, p.enc .minutes t.m.val), (.hour, p.enc .hour t.h.val)]

/-- The bytes *SetDate* writes (R54, R120). -/
def dateItems (p : Params) (d : Date) : List (RtcReg × Byte) :=
  [(.date, p.enc .date d.day), (.monthCentury, p.enc .monthCentury d.month), (.year, p.enc .year d.year)]

/-- The bytes *SetAlarm(n)* writes (R54, R122). -/
def alarmItems (p : Params) (n : AlarmNo) (t : Time) : List (RtcReg × Byte) :=
  let rs := alarmRegs n
  [(rs.r1, p.enc rs.r1 t.s.val), (rs.r2, p.enc rs.r2 t.m.val), (rs.r3, p.enc rs.r3 t.h.val)]

/-- *SetTime* with valid operands (R118). -/
def State.setTime (s : State) (t : Time) : Bool × State := s.busWrite (timeItems s.cfg t)

/-- *SetDate* with valid operands (R120). -/
def State.setDate (s : State) (d : Date) : Bool × State := s.busWrite (dateItems s.cfg d)

/-- *SetAlarm(n)* with valid operands (R122): the time bytes and then the mask bit (R113), one transaction;
true when both report success. -/
def State.setAlarm (s : State) (n : AlarmNo) (t : Time) : Bool × State :=
  s.transaction fun l s =>
    let w := s.writeItems l (Params.atAddrs s.cfg (alarmItems s.cfg n t))
    let k := w.2.rmwBit l (s.cfg.maskPlace n).addr (s.cfg.maskPlace n).bit true
    (w.1 && k.1, k.2)

/-- The value *SetFlag* writes (R123): `FLAG_ON` for on, the other value for off. -/
def FlagPlace.value (f : FlagPlace) (on : Bool) : Bool := if on then f.on else !f.on

/-- *SetFlag(f, on)* (R123). -/
def State.setFlag (s : State) (f : RtcFlag) (on : Bool) : Bool × State :=
  let pl := s.cfg.flagPlace f
  s.busRmw (s.cfg.rtcAddr pl.reg) pl.bit (FlagPlace.value pl on)

end Sys2Proof.Machine
end

