-- ==== Sys2Proof/Machine/Rtc.lean ====
section
/-! DEFINITION. The `RTC` commands of `Host` (R114 to R124). A bus failure is a result, never an exception
(R125); undecodable bytes are the fault `RtcBadData`, which ends the command and stops nothing (R110). -/

namespace Sys2Proof.Machine

/-- The outcome of a Host getter (R110): `none`, a value, or the fault on the first undecodable byte. -/
def State.answerFetched {α : Type} (s : State) (v : Option α → Value) (f : Fetched α) : State :=
  match f with
  | .failed => s.answer (v none)
  | .got a => s.answer (v (some a))
  | .bad reg byte => s.hostFault reg byte

/-- A Boolean result and the state it came with. -/
def State.answerBool (r : Bool × State) : State := r.2.answer (.bool r.1)

/-- A setter (R111): with invalid operands no bus traffic and a free Boolean; otherwise its write. -/
def State.setterCommand {α : Type} (s : State) (operand : Option α) (write : α → Bool × State) : State :=
  match operand with
  | some a => State.answerBool (write a)
  | none => s.answerFree

/-- `RTC.RDREG` (R114): the byte as read, no decode. -/
def execRtcRdreg (reg : RtcReg) (s : State) : Host.Outcome State Fault Refusal :=
  .next ((s.busRead1 reg).2.answer (.optByte (s.busRead1 reg).1))

/-- `RTC.WRREG` (R115): the byte as given. -/
def execRtcWrreg (reg : RtcReg) (val : Byte) (s : State) : Host.Outcome State Fault Refusal :=
  .next (State.answerBool (s.busWrite [(reg, val)]))

/-- `RTC.UPDREG` (R116). -/
def execRtcUpdreg (reg : RtcReg) (bit : Fin 8) (v : Bool) (s : State) :
    Host.Outcome State Fault Refusal :=
  .next (State.answerBool (s.busRmw (s.cfg.rtcAddr reg) bit v))

/-- `RTC.GETTIME` (R117). -/
def execRtcGettime (s : State) : Host.Outcome State Fault Refusal :=
  .next (s.getTime.2.answerFetched .optTime s.getTime.1)

/-- `RTC.SETTIME` (R118). -/
def execRtcSettime (h m sec : BitVec 8) (s : State) : Host.Outcome State Fault Refusal :=
  .next (s.setterCommand (setterTime h m sec) s.setTime)

/-- `RTC.GETDATE` (R119). -/
def execRtcGetdate (s : State) : Host.Outcome State Fault Refusal :=
  .next (s.getDate.2.answerFetched .optDate s.getDate.1)

/-- `RTC.SETDATE` (R120). -/
def execRtcSetdate (day : BitVec 5) (month : BitVec 4) (year : BitVec 17) (s : State) :
    Host.Outcome State Fault Refusal :=
  .next (s.setterCommand (setterDate day month year) s.setDate)

/-- `RTC.GETAL1` (R121). -/
def execRtcGetal1 (s : State) : Host.Outcome State Fault Refusal :=
  .next ((s.getAlarm .one).2.answerFetched .optTime (s.getAlarm .one).1)

/-- `RTC.GETAL2` (R121). -/
def execRtcGetal2 (s : State) : Host.Outcome State Fault Refusal :=
  .next ((s.getAlarm .two).2.answerFetched .optTime (s.getAlarm .two).1)

/-- `RTC.SETAL1` (R122). -/
def execRtcSetal1 (h m sec : BitVec 8) (s : State) : Host.Outcome State Fault Refusal :=
  .next (s.setterCommand (setterTime h m sec) (s.setAlarm .one))

/-- `RTC.SETAL2` (R122). -/
def execRtcSetal2 (h m sec : BitVec 8) (s : State) : Host.Outcome State Fault Refusal :=
  .next (s.setterCommand (setterTime h m sec) (s.setAlarm .two))

/-- `RTC.SETFLAG` (R123). -/
def execRtcSetflag (fid : RtcFlag) (on : Bool) (s : State) : Host.Outcome State Fault Refusal :=
  .next (State.answerBool (s.setFlag fid on))

/-- `RTC.SELFTEST` (R124). -/
def execRtcSelftest (s : State) : Host.Outcome State Fault Refusal :=
  .next (State.answerBool s.busProbe)

end Sys2Proof.Machine
end

