-- ==== Sys2Proof/Machine/RecCommands.lean ====
section
/-! DEFINITION. The `REC` commands of `Host` (R143 to R149): the modes, the cached times and the status. -/

namespace Sys2Proof.Machine

/-- `REC.SETMODE` (R143). -/
def execRecSetmode (v : AlarmMode) (s : State) : Host.Outcome State Fault Refusal :=
  .next ((s.withRtc { s.rtc with alarmMode := v }).answer .unit)

/-- `REC.SETSTATE` (R144). -/
def execRecSetstate (v : AlarmState) (s : State) : Host.Outcome State Fault Refusal :=
  .next ((s.withRtc { s.rtc with alarmState := v }).answer .unit)

/-- A cache setter (R145, R146): the chip's setter, then phase 1 of the cache's write whatever the bus
answered; the result is the bus's. -/
def State.setCached (s : State) (c : CacheSel) (operand : Option Time) (write : Time → Bool × State) :
    State :=
  match operand with
  | some t => ((write t).2.pendCache .host c t).answer (.bool (write t).1)
  | none => s.answerFree

/-- `REC.SETCLOCK` (R145). -/
def execRecSetclock (h m sec : BitVec 8) (s : State) : Host.Outcome State Fault Refusal :=
  .next (s.setCached .clock (setterTime h m sec) s.setTime)

/-- `REC.SETAL1` (R146). -/
def execRecSetal1 (h m sec : BitVec 8) (s : State) : Host.Outcome State Fault Refusal :=
  .next (s.setCached .al1 (setterTime h m sec) (s.setAlarm .one))

/-- `REC.SETAL2` (R146). -/
def execRecSetal2 (h m sec : BitVec 8) (s : State) : Host.Outcome State Fault Refusal :=
  .next (s.setCached .al2 (setterTime h m sec) (s.setAlarm .two))

/-- `REC.ISONLINE` (R147). -/
def execRecIsonline (s : State) : Host.Outcome State Fault Refusal :=
  .next (s.answer (.bit s.rtc.online))

/-- `REC.READ` (R148): the cache as `Host` sees it, torn while `RecTask` has a write pending. -/
def execRecRead (tsel : CacheSel) (s : State) : Host.Outcome State Fault Refusal :=
  .next ((s.readCache .host tsel).2.answer (.time (s.readCache .host tsel).1))

/-- `REC.STATUS` (R149). -/
def execRecStatus (s : State) : Host.Outcome State Fault Refusal :=
  .next (s.answer (.status s.rtc.statusByte))

end Sys2Proof.Machine
end

