-- ==== Sys2Proof/Machine/TimeUnit.lean ====
section
/-! DEFINITION. The `TIME` commands (R78 to R83): pure, each returns a Time to `Host` and writes no cell. -/

namespace Sys2Proof.Machine

/-- A `TIME` command: `f` of its operand; an operand that is no legal Time has no word, and its instruction
is the refused word of R62 and R72. -/
def State.timeCommand (s : State) (h : BitVec 5) (m sec : BitVec 6) (w : Command) (f : Time → Time) : State :=
  match operandTime h m sec with
  | some t => s.answer (.time (f t))
  | none => s.refuse (.reservedEncoding w)

/-- `TIME.ADDH` (R78). -/
def execTimeAddh (h : BitVec 5) (m sec : BitVec 6) (n : BitVec 8) (s : State) :
    Host.Outcome State Fault Refusal :=
  .next (s.timeCommand h m sec (encode (.timeAddh h m sec n)) fun t => addHours t n.toNat)

/-- `TIME.ADDM` (R79). -/
def execTimeAddm (h : BitVec 5) (m sec : BitVec 6) (n : BitVec 8) (s : State) :
    Host.Outcome State Fault Refusal :=
  .next (s.timeCommand h m sec (encode (.timeAddm h m sec n)) fun t =>
    addMinutes s.cfg.timeMinuteCarry t n.toNat)

/-- `TIME.SUBH` (R80). -/
def execTimeSubh (h : BitVec 5) (m sec : BitVec 6) (n : BitVec 8) (s : State) :
    Host.Outcome State Fault Refusal :=
  .next (s.timeCommand h m sec (encode (.timeSubh h m sec n)) fun t => subHours t n.toNat)

/-- `TIME.SUBM` (R81). -/
def execTimeSubm (h : BitVec 5) (m sec : BitVec 6) (n : BitVec 8) (s : State) :
    Host.Outcome State Fault Refusal :=
  .next (s.timeCommand h m sec (encode (.timeSubm h m sec n)) fun t =>
    subMinutes s.cfg.timeMinuteCarry t n.toNat)

/-- `TIME.ADDS` (R82). -/
def execTimeAdds (h : BitVec 5) (m sec : BitVec 6) (n : BitVec 8) (s : State) :
    Host.Outcome State Fault Refusal :=
  .next (s.timeCommand h m sec (encode (.timeAdds h m sec n)) fun t => addSeconds t n.toNat)

/-- `TIME.NORM5` (R83). -/
def execTimeNorm5 (h : BitVec 5) (m sec : BitVec 6) (s : State) : Host.Outcome State Fault Refusal :=
  .next (s.timeCommand h m sec (encode (.timeNorm5 h m sec)) norm5)

end Sys2Proof.Machine
end

