-- ==== Sys2Proof/Machine/Dispatch.lean ====
section
/-! DEFINITION. One arm for each command of the opcode map (R70). -/

namespace Sys2Proof.Machine

/-- The meaning of a command issued by `Host` (R5, R70). -/
def exec (i : Instr) (s : State) : Host.Outcome State Fault Refusal :=
  match i with
  | .dspWrgrid idx seg dots ub lb => Sys2Proof.Machine.execDspWrgrid idx seg dots ub lb s
  | .dspSetbright pct => Sys2Proof.Machine.execDspSetbright pct s
  | .dspGetcmp => Sys2Proof.Machine.execDspGetcmp s
  | .dspEnable => Sys2Proof.Machine.execDspEnable s
  | .dspDisable => Sys2Proof.Machine.execDspDisable s
  | .rtcRdreg reg => Sys2Proof.Machine.execRtcRdreg reg s
  | .rtcWrreg reg val => Sys2Proof.Machine.execRtcWrreg reg val s
  | .rtcUpdreg reg bit v => Sys2Proof.Machine.execRtcUpdreg reg bit v s
  | .rtcGettime => Sys2Proof.Machine.execRtcGettime s
  | .rtcSettime h m sec => Sys2Proof.Machine.execRtcSettime h m sec s
  | .rtcGetdate => Sys2Proof.Machine.execRtcGetdate s
  | .rtcSetdate day month year => Sys2Proof.Machine.execRtcSetdate day month year s
  | .rtcGetal1 => Sys2Proof.Machine.execRtcGetal1 s
  | .rtcGetal2 => Sys2Proof.Machine.execRtcGetal2 s
  | .rtcSetal1 h m sec => Sys2Proof.Machine.execRtcSetal1 h m sec s
  | .rtcSetal2 h m sec => Sys2Proof.Machine.execRtcSetal2 h m sec s
  | .rtcSetflag fid on => Sys2Proof.Machine.execRtcSetflag fid on s
  | .rtcSelftest => Sys2Proof.Machine.execRtcSelftest s
  | .recSetmode v => Sys2Proof.Machine.execRecSetmode v s
  | .recSetstate v => Sys2Proof.Machine.execRecSetstate v s
  | .recSetclock h m sec => Sys2Proof.Machine.execRecSetclock h m sec s
  | .recSetal1 h m sec => Sys2Proof.Machine.execRecSetal1 h m sec s
  | .recSetal2 h m sec => Sys2Proof.Machine.execRecSetal2 h m sec s
  | .recIsonline => Sys2Proof.Machine.execRecIsonline s
  | .recRead tsel => Sys2Proof.Machine.execRecRead tsel s
  | .recStatus => Sys2Proof.Machine.execRecStatus s
  | .timeAddh h m sec n => Sys2Proof.Machine.execTimeAddh h m sec n s
  | .timeAddm h m sec n => Sys2Proof.Machine.execTimeAddm h m sec n s
  | .timeSubh h m sec n => Sys2Proof.Machine.execTimeSubh h m sec n s
  | .timeSubm h m sec n => Sys2Proof.Machine.execTimeSubm h m sec n s
  | .timeAdds h m sec n => Sys2Proof.Machine.execTimeAdds h m sec n s
  | .timeNorm5 h m sec => Sys2Proof.Machine.execTimeNorm5 h m sec s
  | .pwmSetduty ch val => Sys2Proof.Machine.execPwmSetduty ch val s
  | .pwmStart ch => Sys2Proof.Machine.execPwmStart ch s
  | .pwmStop ch => Sys2Proof.Machine.execPwmStop ch s
  | .ledSetlevel ch val => Sys2Proof.Machine.execLedSetlevel ch val s
  | .stlFrameclr => Sys2Proof.Machine.execStlFrameclr s
  | .stlAlarmleds a1 a2 => Sys2Proof.Machine.execStlAlarmleds a1 a2 s
  | .stlFlash col => Sys2Proof.Machine.execStlFlash col s
  | .stripToggle => Sys2Proof.Machine.execStripToggle s
  | .stripNudge sel up => Sys2Proof.Machine.execStripNudge sel up s

end Sys2Proof.Machine
end

