-- ==== Sys2Proof/Machine/HostPort.lean ====
section
/-! DEFINITION. The turn of `Host` (R178): phase 2 of a write it began, or one command word, decoded and run. -/

namespace Sys2Proof.Machine

/-- One command word presented by `Host` (R5, R72): its instruction run, or the word refused. -/
def State.runWord (s : State) (w : Command) : Host.Outcome State Fault Refusal :=
  match decodeWord w with
  | .instr i => exec i s
  | .reserved _ => .next (s.refuse (.reservedEncoding w))

/-- A command turn: the word the Host presents, or nothing where it presents none. -/
def State.commandTurn (s : State) : Host.Outcome State Fault Refusal :=
  match s.nextWord.1 with
  | some w => s.nextWord.2.runWord w
  | none => .next s.nextWord.2

/-- The turn of `Host`: phase 2 first (R39, R178). -/
def State.hostTurn (s : State) : Host.Outcome State Fault Refusal :=
  if s.hostPending then .next s.commitHost else s.commandTurn

/-- `s` with `w` presented and `Host` next; the phase 2 of a write the Host began is taken first, as the Host
would take it (log 23). -/
def State.present (s : State) (w : Command) : State :=
  let s1 := if s.hostPending then s.commitHost else s
  s1.withInp { s1.inp with sched := .host :: s1.inp.sched, words := w :: s1.inp.words }

end Sys2Proof.Machine
end

