-- ==== Sys2Proof/Machine/LedTick.lean ====
section
/-! DEFINITION. The LED tick, the only step of `LedTimer` (R156 to R159): the sequencer part, then the ramp
part. -/

namespace Sys2Proof.Machine

/-- A target set on one channel. -/
def LedUnit.aim (l : LedUnit) (c : Fin 6) (t : Nat) : LedUnit :=
  { l with chan := l.chan.set c { l.chan.get c with target := t } }

/-- `if b then level else 0`. -/
def levelIf (b : Bool) (level : Nat) : Nat := if b then level else 0

/-- The targets the status colour gives channels 0 and 1 (R159). -/
def LedUnit.aimStatus (p : Params) (l : LedUnit) (col : FlashCol) : LedUnit :=
  LedUnit.aim (LedUnit.aim l 0 (levelIf (col == .red) p.statusLevel)) 1
    (levelIf (col == .green) p.statusLevel)

/-- The targets of the two alarm LEDs (R159). -/
def LedUnit.aimAlarms (p : Params) (l : LedUnit) (on1 on2 : Bool) : LedUnit :=
  LedUnit.aim (LedUnit.aim l 2 (levelIf on1 p.alarmLedLevel)) 3 (levelIf on2 p.alarmLedLevel)

/-- One tick of the flash (R159): the count falls, and at 0 the colour is gone. -/
def LedUnit.flashTick (l : LedUnit) : LedUnit :=
  if l.flashLeft > 0 then
    { l with
      flashLeft := l.flashLeft - 1
      flashCol := if l.flashLeft - 1 = 0 then .dark else l.flashCol }
  else l

/-- Which alarm LEDs are lit this tick, with the state after the read it takes (R159): with no alarm active
the Host's requests, otherwise both on an even second of the clock as read. -/
def State.alarmLeds (s : State) : (Bool × Bool) × State :=
  if s.rtc.alarmState = .off then ((s.led.stlAl1, s.led.stlAl2), s)
  else
    let c := s.readCache .ledTimer .clock
    let on := decide (c.1.s.val % 2 = 0)
    ((on, on), c.2)

/-- The sequencer part (R158, R159). -/
def State.sequencer (s : State) : State :=
  let r := s.alarmLeds
  let col := statusColour s.led s.rtc.online
  r.2.withLed
    (LedUnit.flashTick
      (LedUnit.aimAlarms s.cfg (LedUnit.aimStatus s.cfg s.led col) r.1.1 r.1.2))

/-- The level one tick on: toward the target by at most the step (R157). -/
def rampLevel (step : Nat) (c : Channel) : Nat :=
  if c.level < c.target then min c.target (c.level + step)
  else if c.target < c.level then max c.target (c.level - step)
  else c.level

/-- One channel's ramp (R157): the duty follows only when the level moved. -/
def rampChannel (p : Params) (step : Nat) (c : Channel) : Channel :=
  let l := rampLevel step c
  { c with level := l, duty := if l ≠ c.level then p.gammaAt l else c.duty }

/-- The ramp part (R157), on every channel, running or not. -/
def State.ramp (s : State) : State :=
  s.withLed { s.led with chan := Six.zip (rampChannel s.cfg) s.cfg.rampStep s.led.chan }

/-- The LED tick (R156). -/
def State.ledTick (s : State) : State := s.sequencer.ramp

end Sys2Proof.Machine
end

