-- ==== Sys2Proof/Machine/Mux.lean ====
section
/-! DEFINITION. The multiplex step, the only step of `MuxIsr` (R86 to R93), with the pin events of R95. -/

namespace Sys2Proof.Machine

/-- Step 1 (R87): every digit-enable line low. -/
def State.blankDigits (s : State) : State :=
  (s.withDisp { s.disp with digEn := Six.fill false }).trace blankEvents

/-- `(k + 1) mod 6`. -/
def nextDigit (k : Fin 6) : Fin 6 := Fin.ofNat 6 (k.val + 1)

/-- Step 2 (R88): the digit index advances modulo 6. -/
def State.advanceDigit (s : State) : State :=
  s.withDisp { s.disp with muxIdx := nextDigit s.disp.muxIdx }

/-- The shift stages after one rising clock edge: `{srStage[15:0], srData}` (R90). For the other shift order
the board is wired the other way (R45). -/
def shiftIn (o : ShiftOrder) (st : Frame) (b : Bool) : Frame :=
  match o with
  | .msbFirst => BitVec.ofNat 17 (st.toNat * 2 + bitNat b)
  | .lsbFirst => BitVec.ofNat 17 (st.toNat / 2 + bitNat b * 2 ^ 16)

/-- `ShiftBit(b)` (R90): data, clock high (the shift), clock low. -/
def State.shiftBit (s : State) (b : Bool) : State :=
  (s.withDisp
    { s.disp with
      srData := b
      srStage := shiftIn s.cfg.shiftOrder s.disp.srStage b
      srClk := false }).trace [⟨.srData, b⟩, ⟨.srClk, true⟩, ⟨.srClk, false⟩]

/-- The order in which the bits of a frame are shifted out (R45, R89). -/
def ShiftOrder.positions : ShiftOrder → List Nat
  | .msbFirst => [16, 15, 14, 13, 12, 11, 10, 9, 8, 7, 6, 5, 4, 3, 2, 1, 0]
  | .lsbFirst => [0, 1, 2, 3, 4, 5, 6, 7, 8, 9, 10, 11, 12, 13, 14, 15, 16]

/-- Step 3's seventeen `ShiftBit`s (R89). -/
def State.shiftFrame (s : State) (f : Frame) : State :=
  (ShiftOrder.positions s.cfg.shiftOrder).foldl (fun s j => s.shiftBit (f.getLsbD j)) s

/-- `Strobe()` (R91): the latch takes the shift stages. -/
def State.strobe (s : State) : State :=
  (s.withDisp { s.disp with srLatch := s.disp.srStage, srStrobe := false }).trace
    [⟨.srStrobe, true⟩, ⟨.srStrobe, false⟩]

/-- Step 5 (R93): the current digit's line high. -/
def State.enableDigit (s : State) : State :=
  (s.withDisp { s.disp with digEn := s.disp.digEn.set s.disp.muxIdx true }).trace
    [⟨.digEn s.disp.muxIdx, true⟩]

/-- The frame of the digit now selected (R89): the entry as read, or any frame for an unwritten one. -/
def State.fetchFrame (s : State) : Frame × State :=
  let r := s.readGrid s.disp.muxIdx
  match r.1 with
  | some e => (frame e, r.2)
  | none => (Config.freeFrame r.2.inp.draws, r.2.drawn 1)

/-- The multiplex step (R86). -/
def State.muxStep (s : State) : State :=
  let r := s.blankDigits.advanceDigit.fetchFrame
  ((r.2.shiftFrame r.1).strobe).enableDigit

/-- The turn of `MuxIsr` (R172): its step while `dispEnabled = 1`; otherwise no step of it is enabled. -/
def State.muxTurn (s : State) : State := if s.disp.dispEnabled then s.muxStep else s

end Sys2Proof.Machine
end

