-- ==== Sys2Proof/Machine/Observe.lean ====
section
/-! DEFINITION. The observations of the block, which are no cells: the brightness gate (R98), the lit segments
(R99), the LED outputs (R150), and the control-register view (R31). -/

namespace Sys2Proof.Machine

/-- `gate(c)` (R98). -/
def State.gate (s : State) (c : Nat) : Bool :=
  match s.cfg.gatePolarity with
  | .visibleBelow => decide (c < s.disp.brightCmp)
  | .visibleAtOrAbove => decide (s.disp.brightCmp ≤ c)

/-- How many counter values 0..TIMER_TOP are visible: the visible fraction of a slot is this over
TIMER_TOP + 1 (R98). -/
def State.visibleCount (s : State) : Nat :=
  ((List.range (s.cfg.timerTop + 1)).filter fun c => s.gate c).length

/-- Segment `j` of digit `k` is lit at counter value `c` (R99). -/
def State.lit (s : State) (k : Fin 6) (j : Fin 17) (c : Nat) : Bool :=
  s.disp.dispEnabled && s.disp.boostEn && s.disp.heaterEn && s.disp.digEn.get k &&
    s.disp.srLatch.getLsbD j.val && s.gate c

/-- The counter value seen by the `n`th observer that fixes none: any of 0..TIMER_TOP (R33, R99). -/
def State.seenCounter (s : State) (n : Nat) : Nat := Config.freeCounter n % (s.cfg.timerTop + 1)

/-- The output of an LED channel (R150): its duty, of DUTY_MAX, while it runs; low while it does not. -/
def State.ledOutput (s : State) (c : Fin 6) : Nat :=
  if (s.led.chan.get c).run then (s.led.chan.get c).duty else 0

/-- The observation of the LED unit (R150). -/
def State.ledVector (s : State) (c : Fin 6) : Bool × Nat :=
  ((s.led.chan.get c).run, (s.led.chan.get c).duty)

/-- An agent has an enabled step (R172, R173, R184, R187): `MuxIsr` exactly while `dispEnabled = 1`, the others
always. -/
def State.enabled (s : State) : Agent → Bool
  | .host => true
  | .muxIsr => s.disp.dispEnabled
  | .recTask => true
  | .ledTimer => true

/-- CR0 DISPCTL (R31): EN bit 0, BOOST bit 1, HEATER bit 2. -/
def State.dispctl (s : State) : BitVec 3 :=
  BitVec.ofNat 3
    (bitNat s.disp.heaterEn * 4 + bitNat s.disp.boostEn * 2 + bitNat s.disp.dispEnabled)

/-- CR1 BRIGHT (R31). -/
def State.bright (s : State) : Nat := s.disp.brightCmp

/-- CR2 ALMCTL (R31): MODE bits 1:0, STATE bits 3:2. -/
def State.almctl (s : State) : BitVec 4 :=
  BitVec.ofNat 4 (s.rtc.alarmState.code * 4 + s.rtc.alarmMode.code)

/-- CR3 RECSTAT (R31), its bits 7:4 in the `REC.STATUS` byte: LATCH, STEADY, READY, ONLINE. -/
def State.recstat (s : State) : BitVec 4 :=
  BitVec.ofNat 4
    (bitNat s.rtc.trigLatch * 8 + bitNat s.rtc.recPc.steady * 4 + bitNat s.rtc.ready * 2 +
      bitNat s.rtc.online)

end Sys2Proof.Machine
end

