-- ==== Sys2Proof/Machine/RecTask.lean ====
section
/-! DEFINITION. The reconciliation micro-program, the step of `RecTask` (R126 to R141). -/

namespace Sys2Proof.Machine

/-- `pc <- target` (R8). -/
def State.goTo (s : State) (pc : RecPc) : State := s.withRtc { s.rtc with recPc := pc }

/-- The bootstrap failure step (R127): `online <- 0; pc <- B_SQW`, and nothing else. -/
def State.bootFail (s : State) : State := s.withRtc { s.rtc with online := false, recPc := .bSqw }

/-- An initialisation step (R128 to R131): a flag set, then on, or the failure step. -/
def State.initStep (s : State) (f : RtcFlag) (on : Bool) (next : RecPc) : State :=
  let r := s.setFlag f on
  if r.1 then r.2.goTo next else r.2.bootFail

/-- The value a getter gives `RecTask` (R134): a byte that fails its decode is recorded and yields `none`. -/
def State.recFetched (r : Fetched Time × State) : Option Time × State :=
  match r.1 with
  | .failed => (none, r.2)
  | .got t => (some t, r.2)
  | .bad reg byte => (none, r.2.takeFault ⟨.recTask, reg, byte⟩)

/-- A bootstrap read (R132, R133): the time kept in its temporary, or the failure step. -/
def State.bootRead (r : Option Time × State) (keep : State → Time → State) (next : RecPc) : State :=
  match r.1 with
  | some t => (keep r.2 t).goTo next
  | none => r.2.bootFail

/-- `tmpTime <- t` (R132). -/
def State.keepTime (s : State) (t : Time) : State := s.withRtc { s.rtc with tmpTime := some t }

/-- `tmpAl<n> <- t` (R133, R135). -/
def State.keepAlarm (n : AlarmNo) (s : State) (t : Time) : State :=
  match n with
  | .one => s.withRtc { s.rtc with tmpAl1 := some t }
  | .two => s.withRtc { s.rtc with tmpAl2 := some t }

/-- `tmpAl<n>` (R20). -/
def RtcUnit.tmpAlarm (r : RtcUnit) : AlarmNo → Option Time
  | .one => r.tmpAl1
  | .two => r.tmpAl2

/-- The normalisation of one alarm (R135): a minute that is no multiple of 5 is lowered and written back; the
write's result is ignored. -/
def State.fixAlarm (s : State) (n : AlarmNo) (t : Time) : State :=
  if t.m.val % 5 ≠ 0 then ((State.keepAlarm n s (norm5 t)).setAlarm n (norm5 t)).2 else s

/-- Micro-steps `B_FIX1` and `B_FIX2` (R135). -/
def State.fixStep (s : State) (n : AlarmNo) (next : RecPc) : State :=
  let t := s.readTemporary (s.rtc.tmpAlarm n)
  (t.2.fixAlarm n t.1).goTo next

/-- Phase 1 of the three writes of `B_COMMIT` (R136). -/
def State.pendCommit (s : State) (t a1 a2 : Time) : State :=
  ((s.pendCache .recTask .clock t).pendCache .recTask .al1 a1).pendCache .recTask .al2 a2

/-- The first step of `B_COMMIT` (R136). -/
def State.commitStep (s : State) : State :=
  let t := s.readTemporary s.rtc.tmpTime
  let a1 := t.2.readTemporary s.rtc.tmpAl1
  let a2 := a1.2.readTemporary s.rtc.tmpAl2
  a2.2.pendCommit t.1 a1.1 a2.1

/-- Micro-step `S_READ` (R137): the chip's time, or the cached time one second on; phase 1 of its write. -/
def State.pollStep (s : State) : State :=
  let r := State.recFetched s.getTime
  match r.1 with
  | some t =>
    ((r.2.withRtc { r.2.rtc with online := true }).pendCache .recTask .clock t).goTo .sCommit
  | none =>
    let c := r.2.readCache .recTask .clock
    ((c.2.withRtc { c.2.rtc with online := false }).pendCache .recTask .clock (addSeconds c.1 1)).goTo
      .sCommit

/-- Micro-step `S_EVAL` (R139): the alarm match and the edge latch. -/
def State.evalStep (s : State) : State :=
  let c := s.readCache .recTask .clock
  let a1 := c.2.readCache .recTask .al1
  let a2 := a1.2.readCache .recTask .al2
  (a2.2.withRtc
    (RtcUnit.latchAlarm a2.2.rtc (alarmMatch s.cfg s.rtc.alarmMode c.1 a1.1 a2.1))).goTo .sRead

/-- The phase-2 step of `RecTask`, with what its micro-step puts in it (R126, R136, R138). At another `recPc`
no run has a write pending (log 14). -/
def State.recPhase2 (s : State) : State :=
  let c := s.commitRec
  match s.rtc.recPc with
  | .bCommit => c.withRtc { c.rtc with online := true, ready := true, recPc := .sRead }
  | .sCommit => c.goTo .sEval
  | .bSqw => c
  | .bInt => c
  | .bA1f => c
  | .bA2f => c
  | .bRdt => c
  | .bRda1 => c
  | .bRda2 => c
  | .bFix1 => c
  | .bFix2 => c
  | .sRead => c
  | .sEval => c

/-- The micro-step named by `recPc` (R126). -/
def State.microStep (s : State) : State :=
  match s.rtc.recPc with
  | .bSqw => s.initStep .sqw false .bInt
  | .bInt => s.initStep .intOut true .bA1f
  | .bA1f => s.initStep .a1f false .bA2f
  | .bA2f => s.initStep .a2f false .bRdt
  | .bRdt => State.bootRead (State.recFetched s.getTime) State.keepTime .bRda1
  | .bRda1 => State.bootRead (State.recFetched (s.getAlarm .one)) (State.keepAlarm .one) .bRda2
  | .bRda2 => State.bootRead (State.recFetched (s.getAlarm .two)) (State.keepAlarm .two) .bFix1
  | .bFix1 => s.fixStep .one .bFix2
  | .bFix2 => s.fixStep .two .bCommit
  | .bCommit => s.commitStep
  | .sRead => s.pollStep
  | .sCommit => s.goTo .sEval
  | .sEval => s.evalStep

/-- The turn of `RecTask` (R126): phase 2 where phase 1 has been taken, otherwise the micro-step. -/
def State.recTurn (s : State) : State :=
  if s.recPending then s.recPhase2 else s.microStep

end Sys2Proof.Machine
end

