-- ==== Sys2Proof/Machine/Step.lean ====
section
/-! DEFINITION. One step of the machine: one atomic step of the agent whose turn it is (R4, R48). -/

namespace Sys2Proof.Machine

/-- The turn of one agent (R4). -/
def State.turn (s : State) (a : Agent) : Host.Outcome State Fault Refusal :=
  match a with
  | .host => s.hostTurn
  | .muxIsr => .next s.muxTurn
  | .recTask => .next s.recTurn
  | .ledTimer => .next s.ledTick

/-- One step (R48): the next agent of the interleaving takes its turn. -/
def step (s : State) : Host.Outcome State Fault Refusal := s.nextAgent.2.turn s.nextAgent.1

/-- `s` with a word of the opcode table presented by `Host`, whose turn is next. -/
def State.withFetchWord (s : State) (nbits w : Nat) : State := s.present (tableWord nbits w)

end Sys2Proof.Machine
end

