-- ==== Sys2Proof/Safety.lean ====
section
/-! DEFINITION. What claims are stated in: the premise `CleanReset` (R188), a run with no refused word (R168),
the invariants of the block (R94, R140, the ranges of 10_state.md, R39, R104, R109), what the oracle answers
to a transaction, and which units of the state a step leaves alone. -/

namespace Sys2Proof.Machine

/-! ### Premises -/

/-- `CleanReset` (R188): the reset state of R186 for some value of each draw and some legal parameters,
whatever the environment will supply. -/
def State.CleanReset (s : State) : Prop :=
  ∃ p mux stage latch inp, p.legal = true ∧ p.decided = p ∧
    s = (State.resetWith p mux stage latch).withInp inp

/-- No word has been refused: a run that refuses one is outside every claim of the spec (R168). -/
def State.Admitted (s : State) : Prop := s.out.refused = false

/-! ### Invariants -/

/-- The display between steps (R94, R100, R101): only the current digit's line can be high, and then the latch
holds what was shifted in last; with the display off every line and both converters are off; the clock and the
strobe idle low. -/
structure State.DisplayInv (s : State) : Prop where
  oneDigit : ∀ k, s.disp.digEn.get k = true → k = s.disp.muxIdx
  latched : ∀ k, s.disp.digEn.get k = true → s.disp.srLatch = s.disp.srStage
  dark : s.disp.dispEnabled = false → ∀ k, s.disp.digEn.get k = false
  boost : s.disp.boostEn = s.disp.dispEnabled
  heater : s.disp.heaterEn = s.disp.dispEnabled
  clockLow : s.disp.srClk = false
  strobeLow : s.disp.srStrobe = false

/-- One LED channel in its range (R28). -/
def Channel.InRange (p : Params) (c : Channel) : Prop :=
  c.level ≤ p.levelMax ∧ c.target ≤ p.levelMax ∧ c.duty ≤ p.dutyMax

/-- Every cell in the range 10_state.md gives it (R18, R28, R29, R30), for legal parameters (R6). -/
structure State.RangeInv (s : State) : Prop where
  legal : s.cfg.legal = true
  bright : s.disp.brightCmp ≤ s.cfg.timerTop + 1
  channels : ∀ c, Channel.InRange s.cfg (s.led.chan.get c)
  flash : s.led.flashLeft ≤ s.cfg.flashTicks
  flashDark : s.led.flashLeft = 0 ↔ s.led.flashCol = .dark
  stripB : s.led.stripB ≤ s.cfg.stripBMax
  stripCct : s.led.stripCct ≤ s.cfg.cctMax

/-- The temporaries written by the time the micro-program is at `pc` (R140). -/
def RtcUnit.Written (r : RtcUnit) : Prop :=
  match r.recPc with
  | .bSqw => True
  | .bInt => True
  | .bA1f => True
  | .bA2f => True
  | .bRdt => True
  | .bRda1 => r.tmpTime.isSome = true
  | .bRda2 => r.tmpTime.isSome = true ∧ r.tmpAl1.isSome = true
  | .bFix1 => r.tmpTime.isSome = true ∧ r.tmpAl1.isSome = true ∧ r.tmpAl2.isSome = true
  | .bFix2 => r.tmpTime.isSome = true ∧ r.tmpAl1.isSome = true ∧ r.tmpAl2.isSome = true
  | .bCommit => r.tmpTime.isSome = true ∧ r.tmpAl1.isSome = true ∧ r.tmpAl2.isSome = true
  | .sRead => True
  | .sCommit => True
  | .sEval => True

/-- `RecTask`'s writes in flight at `pc` (R136, R137): at `B_COMMIT` all three or none, at `S_COMMIT` the
clock's, elsewhere none. -/
def RtcUnit.InFlight (r : RtcUnit) : Prop :=
  match r.recPc with
  | .bCommit =>
    r.clockPend.recTask.isSome = r.al1Pend.recTask.isSome ∧
      r.clockPend.recTask.isSome = r.al2Pend.recTask.isSome
  | .sCommit =>
    r.clockPend.recTask.isSome = true ∧ r.al1Pend.recTask = none ∧ r.al2Pend.recTask = none
  | .bSqw => r.clockPend.recTask = none ∧ r.al1Pend.recTask = none ∧ r.al2Pend.recTask = none
  | .bInt => r.clockPend.recTask = none ∧ r.al1Pend.recTask = none ∧ r.al2Pend.recTask = none
  | .bA1f => r.clockPend.recTask = none ∧ r.al1Pend.recTask = none ∧ r.al2Pend.recTask = none
  | .bA2f => r.clockPend.recTask = none ∧ r.al1Pend.recTask = none ∧ r.al2Pend.recTask = none
  | .bRdt => r.clockPend.recTask = none ∧ r.al1Pend.recTask = none ∧ r.al2Pend.recTask = none
  | .bRda1 => r.clockPend.recTask = none ∧ r.al1Pend.recTask = none ∧ r.al2Pend.recTask = none
  | .bRda2 => r.clockPend.recTask = none ∧ r.al1Pend.recTask = none ∧ r.al2Pend.recTask = none
  | .bFix1 => r.clockPend.recTask = none ∧ r.al1Pend.recTask = none ∧ r.al2Pend.recTask = none
  | .bFix2 => r.clockPend.recTask = none ∧ r.al1Pend.recTask = none ∧ r.al2Pend.recTask = none
  | .sRead => r.clockPend.recTask = none ∧ r.al1Pend.recTask = none ∧ r.al2Pend.recTask = none
  | .sEval => r.clockPend.recTask = none ∧ r.al1Pend.recTask = none ∧ r.al2Pend.recTask = none

/-- The reconciliation task (R136, R140, R142): temporaries written before they are read, its writes in flight
only where its micro-program puts them, `ready` exactly in the steady phase, and in the bootstrap the bus not
yet online and no alarm evaluated. -/
structure State.RecInv (s : State) : Prop where
  written : s.rtc.Written
  inFlight : s.rtc.InFlight
  ready : s.rtc.ready = s.rtc.recPc.steady
  offline : s.rtc.recPc.steady = false → s.rtc.online = false
  unlatched : s.rtc.recPc.steady = false → s.rtc.trigLatch = false

/-- How many pending slots of the Host are full (R13, R22). -/
def State.hostSlots (s : State) : Nat :=
  bitNat s.disp.gridPend.d0.isSome + bitNat s.disp.gridPend.d1.isSome +
    bitNat s.disp.gridPend.d2.isSome + bitNat s.disp.gridPend.d3.isSome +
    bitNat s.disp.gridPend.d4.isSome + bitNat s.disp.gridPend.d5.isSome +
    bitNat s.rtc.clockPend.host.isSome + bitNat s.rtc.al1Pend.host.isSome +
    bitNat s.rtc.al2Pend.host.isSome

/-- The Host has at most one two-phase write in flight: its next step is phase 2 (R39, R178). -/
def State.HostInv (s : State) : Prop := s.hostSlots ≤ 1

/-- A walk over bus traffic: whether it ends inside a transaction, or none where an item is out of place. -/
def busScan : Bool → List BusItem → Option Bool
  | inside, [] => some inside
  | false, .start :: rest => busScan true rest
  | true, .read _ :: rest => busScan true rest
  | true, .write _ _ :: rest => busScan true rest
  | true, .probe :: rest => busScan true rest
  | true, .stop :: rest => busScan false rest
  | true, .start :: _ => none
  | false, .read _ :: _ => none
  | false, .write _ _ :: _ => none
  | false, .probe :: _ => none
  | false, .stop :: _ => none

/-- Every transaction is bracketed and the bus is released (R104). -/
def State.BusInv (s : State) : Prop := busScan false s.out.bus = some false

/-- The simulator's memory keeps its canonical form (log 10). -/
def State.SimInv (s : State) : Prop := ∀ c, s.inp.sim = some c → Memory.wf c.simReg = true

/-- All the invariants. -/
structure State.Inv (s : State) : Prop where
  display : s.DisplayInv
  range : s.RangeInv
  recon : s.RecInv
  host : s.HostInv
  bus : s.BusInv
  sim : s.SimInv

/-! ### The oracle's answer to a transaction begun in `s` (R103, R109) -/

/-- The answer to a read of three registers. -/
def State.readAnswer (s : State) (rs : Regs3) : Option Bytes3 :=
  match s.inp.sim with
  | none => s.inp.reads.headD (Config.freeRead s.inp.draws)
  | some c =>
    if c.script.headD true then
      some ⟨Memory.read c.simReg (s.cfg.rtcAddr rs.r1).toNat, Memory.read c.simReg (s.cfg.rtcAddr rs.r2).toNat,
        Memory.read c.simReg (s.cfg.rtcAddr rs.r3).toNat⟩
    else none

/-- The answer to a read of one bus address. -/
def State.byteAnswer (s : State) (a : Byte) : Option Byte :=
  match s.inp.sim with
  | none => (s.inp.reads.headD (Config.freeRead s.inp.draws)).map (·.b1)
  | some c => if c.script.headD true then some (Memory.read c.simReg a.toNat) else none

/-- The answer to a write or a probe. -/
def State.ackAnswer (s : State) : Bool :=
  match s.inp.sim with
  | none => s.inp.acks.headD (Config.freeAck s.inp.draws)
  | some c => c.script.headD true

/-- The answer to the read of a mask byte after the bytes `items` were written in the same transaction
(R113, R122). -/
def State.maskAnswer (s : State) (items : List (Byte × Byte)) (a : Byte) : Option Byte :=
  match s.inp.sim with
  | none =>
    (s.inp.reads.headD
      (Config.freeRead (s.inp.draws + if s.inp.acks.isEmpty then 1 else 0))).map (·.b1)
  | some c =>
    if c.script.headD true then some (Memory.read (storeItems c.simReg items) a.toNat) else none

/-! ### The traffic of a transaction (R104 to R108) -/

/-- A transaction is its items between begin and end (R104). -/
def bracketed (xs : List BusItem) : List BusItem := .start :: xs ++ [.stop]

/-- The items of a read-modify-write whose read was answered `b` (R107). -/
def rmwItems (a : Byte) (i : Fin 8) (v : Bool) (b : Option Byte) : List BusItem :=
  match b with
  | none => [.read a]
  | some x => [.read a, .write a (setBit x i v)]

/-- The items of a write to named registers, in order (R106). -/
def writeTraffic (p : Params) (items : List (RtcReg × Byte)) : List BusItem :=
  items.map fun it => .write (p.rtcAddr it.1) it.2

/-- The items of a read of three named registers, in order (R105). -/
def readTraffic (p : Params) (rs : Regs3) : List BusItem :=
  [.read (p.rtcAddr rs.r1), .read (p.rtcAddr rs.r2), .read (p.rtcAddr rs.r3)]

/-! ### Command words (R70 to R72) -/

/-- The opcodes the map leaves out (R72 case 1). -/
def unassignedOpcodes : List Nat :=
  [0x00, 0x06, 0x07, 0x15, 0x16, 0x17, 0x26, 0x27, 0x2C, 0x2D, 0x2E, 0x2F, 0x33, 0x34, 0x35, 0x36, 0x37,
    0x3A, 0x3B, 0x3C, 0x3D, 0x3E, 0x3F]

/-- The bit fields (high bit, low bit) an opcode's format and its extra constraint fix to 0 (R56 to R70). -/
def zeroFields (op : Nat) : List (Nat × Nat) :=
  if op = 0x01 then [(22, 17)]
  else if op = 0x02 then [(25, 7)]
  else if op = 0x08 then [(25, 21), (15, 0)]
  else if op = 0x09 then [(25, 21), (15, 8)]
  else if op = 0x0A then [(25, 21), (15, 11), (7, 1)]
  else if op = 0x0E then []
  else if op = 0x13 then [(25, 19), (15, 1)]
  else if op ∈ [0x0C, 0x11, 0x12, 0x1A, 0x1B, 0x1C] then [(25, 24)]
  else if op ∈ [0x18, 0x19, 0x1E, 0x31, 0x32, 0x39] then [(25, 2)]
  else if op ∈ [0x20, 0x21, 0x22, 0x23, 0x24] then [(17, 17)]
  else if op = 0x25 then [(25, 17)]
  else if op ∈ [0x28, 0x2B] then [(21, 16)]
  else if op ∈ [0x29, 0x2A] then [(21, 0)]
  else [(25, 0)]

/-- Every index field of the word names an entry of its table (R72 case 3). -/
def indexInTable (w : Command) : Prop :=
  (bits w 31 26 = 0x01 → bits w 25 23 ≤ 5) ∧
    (bits w 31 26 ∈ [0x08, 0x09, 0x0A] → bits w 20 16 ≤ 17) ∧
    (bits w 31 26 = 0x13 → bits w 18 16 ≤ 6) ∧
    (bits w 31 26 ∈ [0x28, 0x29, 0x2A, 0x2B] → bits w 25 22 ≤ 5) ∧
    (bits w 31 26 = 0x1E → bits w 1 0 ≠ 3) ∧
    (bits w 31 26 = 0x32 → bits w 1 0 = 1 ∨ bits w 1 0 = 2)

/-- A format X word's operand is a legal Time (R72 case 4). -/
def timeOperandLegal (w : Command) : Prop :=
  bits w 31 26 ∈ [0x20, 0x21, 0x22, 0x23, 0x24, 0x25] →
    bits w 16 12 ≤ 23 ∧ bits w 11 6 ≤ 59 ∧ bits w 5 0 ≤ 59

/-! ### What a getter's answer stands for (R110, R169) -/

/-- The bytes answered for seconds, minutes and hours stand for `f`: no answer, the first byte that has no
value, or the Time of the three values. -/
def Params.ReadsAs (p : Params) (rs : Regs3) (ans : Option Bytes3) (f : Fetched Time) : Prop :=
  match ans with
  | none => f = .failed
  | some b =>
    match p.dec rs.r1 b.b1, p.dec rs.r2 b.b2, p.dec rs.r3 b.b3 with
    | none, _, _ => f = .bad rs.r1 b.b1
    | some _, none, _ => f = .bad rs.r2 b.b2
    | some _, some _, none => f = .bad rs.r3 b.b3
    | some x, some y, some z => ∃ t : Time, f = .got t ∧ t.s.val = x ∧ t.m.val = y ∧ t.h.val = z

/-- The bytes answered for date, month and year stand for `f`. -/
def Params.ReadsAsDate (p : Params) (ans : Option Bytes3) (f : Fetched Date) : Prop :=
  match ans with
  | none => f = .failed
  | some b =>
    match p.dec .date b.b1, p.dec .monthCentury b.b2, p.dec .year b.b3 with
    | none, _, _ => f = .bad .date b.b1
    | some _, none, _ => f = .bad .monthCentury b.b2
    | some _, some _, none => f = .bad .year b.b3
    | some x, some y, some z => f = .got ⟨x, y, z⟩

/-- The outcome of a `Host` getter and the faults it records: a result, or the fault `RtcBadData` (R110,
R167). -/
def State.GetterEnds {α : Type} (s t : State) (value : Option α → Value) (f : Fetched α) : Prop :=
  match f with
  | .failed => t.out.outcome = .result (value none) ∧ t.out.faults = s.out.faults
  | .got a => t.out.outcome = .result (value (some a)) ∧ t.out.faults = s.out.faults
  | .bad reg byte =>
    t.out.outcome = .fault ⟨.host, reg, byte⟩ ∧ t.out.faults = s.out.faults ++ [⟨.host, reg, byte⟩]

/-- The faults a `RecTask` getter records (R134, R167). -/
def State.RecGetterFaults (s t : State) (f : Fetched Time) : Prop :=
  match f with
  | .failed => t.out.faults = s.out.faults
  | .got _ => t.out.faults = s.out.faults
  | .bad reg byte => t.out.faults = s.out.faults ++ [⟨.recTask, reg, byte⟩]

/-- `RecTask`'s step touched only its own unit, drove the traffic `xs` and left the Host's outcome alone. -/
structure State.RecOnly (s t : State) (xs : List BusItem) : Prop where
  cfg : t.cfg = s.cfg
  disp : t.disp = s.disp
  led : t.led = s.led
  words : t.inp.words = s.inp.words
  sched : t.inp.sched = s.inp.sched.tail
  refused : t.out.refused = s.out.refused
  outcome : t.out.outcome = s.out.outcome
  pins : t.out.pins = s.out.pins
  bus : t.out.bus = s.out.bus ++ xs

/-! ### What a reader may see of a cache (R37, R40) -/

/-- `c` is what agent `a` may read of a cache: each field by itself is the cell's or that of another agent's
pending write. -/
structure State.Sees (s : State) (a : Agent) (x : CacheSel) (c : Time) : Prop where
  h : c.h = (s.rtc.cache x).h ∨ ∃ v ∈ (s.rtc.pend x).others a, c.h = v.h
  m : c.m = (s.rtc.cache x).m ∨ ∃ v ∈ (s.rtc.pend x).others a, c.m = v.m
  s : c.s = (s.rtc.cache x).s ∨ ∃ v ∈ (s.rtc.pend x).others a, c.s = v.s

/-! ### Units left alone -/

/-- No input but the oracle's was taken. -/
def State.SameInputs (s t : State) : Prop := t.inp.sched = s.inp.sched ∧ t.inp.words = s.inp.words

/-- No cell of the block differs: only the oracle's inputs, the traces and the outcome may (R72, R110). -/
def State.SameCells (s t : State) : Prop :=
  t.cfg = s.cfg ∧ t.disp = s.disp ∧ t.rtc = s.rtc ∧ t.led = s.led ∧ s.SameInputs t

/-- Nothing was recorded but the Host's outcome and the bus traffic `xs`. -/
def State.Recorded (s t : State) (o : HostOutcome) (xs : List BusItem) : Prop :=
  t.out = { s.out with outcome := o, bus := s.out.bus ++ xs }

/-- The cells `Host` may not write are unchanged, and it only clears digit lines (R177). -/
structure State.HostFrame (s t : State) : Prop where
  cfg : t.cfg = s.cfg
  muxIdx : t.disp.muxIdx = s.disp.muxIdx
  srStage : t.disp.srStage = s.disp.srStage
  srLatch : t.disp.srLatch = s.disp.srLatch
  srData : t.disp.srData = s.disp.srData
  srClk : t.disp.srClk = s.disp.srClk
  srStrobe : t.disp.srStrobe = s.disp.srStrobe
  digEn : ∀ k, t.disp.digEn.get k = true → s.disp.digEn.get k = true
  recPc : t.rtc.recPc = s.rtc.recPc
  tmpTime : t.rtc.tmpTime = s.rtc.tmpTime
  tmpAl1 : t.rtc.tmpAl1 = s.rtc.tmpAl1
  tmpAl2 : t.rtc.tmpAl2 = s.rtc.tmpAl2
  clockPend : t.rtc.clockPend.recTask = s.rtc.clockPend.recTask
  al1Pend : t.rtc.al1Pend.recTask = s.rtc.al1Pend.recTask
  al2Pend : t.rtc.al2Pend.recTask = s.rtc.al2Pend.recTask
  online : t.rtc.online = s.rtc.online
  ready : t.rtc.ready = s.rtc.ready
  trigLatch : t.rtc.trigLatch = s.rtc.trigLatch
  level : ∀ c, (t.led.chan.get c).level = (s.led.chan.get c).level

/-- The cells `RecTask` may not write are unchanged, and it moves `alarmState` only from Off to Sunrise
(R177). -/
structure State.RecFrame (s t : State) : Prop where
  cfg : t.cfg = s.cfg
  disp : t.disp = s.disp
  led : t.led = s.led
  alarmMode : t.rtc.alarmMode = s.rtc.alarmMode
  alarmState : t.rtc.alarmState = s.rtc.alarmState ∨
    (s.rtc.alarmState = .off ∧ t.rtc.alarmState = .sunrise)
  clockPend : t.rtc.clockPend.host = s.rtc.clockPend.host
  al1Pend : t.rtc.al1Pend.host = s.rtc.al1Pend.host
  al2Pend : t.rtc.al2Pend.host = s.rtc.al2Pend.host

/-- The cells `MuxIsr` may not write are unchanged (R177). -/
structure State.MuxFrame (s t : State) : Prop where
  cfg : t.cfg = s.cfg
  rtc : t.rtc = s.rtc
  led : t.led = s.led
  grid : t.disp.grid = s.disp.grid
  gridPend : t.disp.gridPend = s.disp.gridPend
  boostEn : t.disp.boostEn = s.disp.boostEn
  heaterEn : t.disp.heaterEn = s.disp.heaterEn
  dispEnabled : t.disp.dispEnabled = s.disp.dispEnabled
  brightCmp : t.disp.brightCmp = s.disp.brightCmp
  faults : t.out.faults = s.out.faults
  refused : t.out.refused = s.out.refused
  bus : t.out.bus = s.out.bus

/-- The cells `LedTimer` may not write are unchanged: it sets the targets of channels 0 to 3 only (R177). -/
structure State.LedFrame (s t : State) : Prop where
  cfg : t.cfg = s.cfg
  disp : t.disp = s.disp
  rtc : t.rtc = s.rtc
  out : t.out = s.out
  run : ∀ c, (t.led.chan.get c).run = (s.led.chan.get c).run
  stripTargets : ∀ c : Fin 6, 4 ≤ c.val → (t.led.chan.get c).target = (s.led.chan.get c).target
  stlAl1 : t.led.stlAl1 = s.led.stlAl1
  stlAl2 : t.led.stlAl2 = s.led.stlAl2
  stripOn : t.led.stripOn = s.led.stripOn
  stripB : t.led.stripB = s.led.stripB
  stripCct : t.led.stripCct = s.led.stripCct

end Sys2Proof.Machine
end

