-- ==== Sys2Proof/Certificates/Slice0/Obligations.lean ====
section
/-! DEFINITION. The statements for the provers, in the order of OBLIGATIONS.json. A command's statement begins
with its encoding, written out from its format as opcode and bits 25:0, and then gives the whole next state. -/

open Sys2Proof Sys2Proof.Machine

/-! ### The command word -/

/-- Every well-formed instruction is what its word decodes to (R55 to R70). -/
def Obligations.DecodeOfEncode : Prop :=
  ∀ i : Instr, i.wellFormed = true → decodeWord (encode i) = .instr i

/-- A word that decodes is the word of a well-formed instruction: no two words share a meaning (R55, R72). -/
def Obligations.EncodeOfDecode : Prop :=
  ∀ (w : Command) (i : Instr), decodeWord w = .instr i → i.wellFormed = true ∧ encode i = w

/-- Words of 95_test_vectors.md section 3.1, one or more of each family. -/
def Obligations.SpecWordsDecode : Prop :=
  decodeWord 0x048040DB = .instr (.dspWrgrid 1 0x00DB true false false) ∧
    decodeWord 0x08000032 = .instr (.dspSetbright 50) ∧
    decodeWord 0x240F0005 = .instr (.rtcWrreg .agingOffset 5) ∧
    decodeWord 0x280D0001 = .instr (.rtcUpdreg .control 0 true) ∧
    decodeWord 0x3BA407E8 = .instr (.rtcSetdate 29 2 2024) ∧
    decodeWord 0x4C010001 = .instr (.rtcSetflag .intOut true) ∧
    decodeWord 0x6C0D1E00 = .instr (.recSetal1 13 30 0) ∧
    decodeWord 0x78000001 = .instr (.recRead .al1) ∧
    decodeWord 0x84057EC0 = .instr (.timeAddm 23 59 0 1) ∧
    decodeWord 0xA1000080 = .instr (.pwmSetduty 4 128) ∧
    decodeWord 0xC4000001 = .instr (.stlAlarmleds true false) ∧
    decodeWord 0xE4000001 = .instr (.stripNudge .brightness true)

/-- Which words are refused, in the order of the checks, and that every other word is a command (R72, R169);
and what the Host's step with a refused word does: it sets `refused` and writes nothing else (R168). -/
def Obligations.ReservedWordsAreRefused : Prop :=
  ∀ w : Command,
    (bits w 31 26 ∈ unassignedOpcodes → decodeWord w = .reserved .unknownOpcode) ∧
      (bits w 31 26 ∉ unassignedOpcodes →
        ((¬ ∀ f ∈ zeroFields (bits w 31 26), bits w f.1 f.2 = 0) →
            decodeWord w = .reserved .reservedBit) ∧
          ((∀ f ∈ zeroFields (bits w 31 26), bits w f.1 f.2 = 0) →
            (¬ indexInTable w → decodeWord w = .reserved .indexOutOfTable) ∧
              (indexInTable w →
                (¬ timeOperandLegal w → decodeWord w = .reserved .illegalTime) ∧
                  (timeOperandLegal w →
                    ∃ i, decodeWord w = .instr i ∧ i.opcode = bits w 31 26)))) ∧
      ∀ (why : Reserved) (s : State), decodeWord w = .reserved why →
        s.runWord w =
          .next { s with out := { s.out with refused := true, outcome := .refuse (.reservedEncoding w) } }

/-! ### The step -/

/-- Where the Host's turn comes with a word that decodes, and no write of its own is pending, the step is the
instruction, run on the state with that turn and that word taken (R5, R178). -/
def Obligations.StepRunsTheDecodedWord : Prop :=
  ∀ (s : State) (as : List Agent) (w : Command) (ws : List Command) (i : Instr),
    s.inp.sched = .host :: as → s.inp.words = w :: ws → s.hostPending = false →
      decodeWord w = .instr i →
        step s = exec i { s with inp := { s.inp with sched := as, words := ws } }

/-- A word of the opcode table that decodes, placed with `withFetchWord`, is what the very next step runs; a
write the Host had pending is committed first (R39, R178). -/
def Obligations.StepAfterWithFetchWord : Prop :=
  ∀ (s : State) (nbits w : Nat) (i : Instr), decodeTableWord nbits w = some i →
    step (s.withFetchWord nbits w) = exec i (if s.hostPending then s.commitHost else s)

/-- Where the environment names the next agent, the step is that agent's, and no step of `MuxIsr` is enabled
while the display is off: then nothing but the list of turns changes (R48, R172). -/
def Obligations.StepIsTheNextAgentsTurn : Prop :=
  ∀ (s : State) (a : Agent) (as : List Agent), s.inp.sched = a :: as →
    step s = ({ s with inp := { s.inp with sched := as } } : State).turn a ∧
      (a = .muxIsr → s.disp.dispEnabled = false →
        step s = .next { s with inp := { s.inp with sched := as } })

/-- The Host's step after phase 1 of a two-phase write is phase 2: every pending cell takes its value, the
Host's slots are empty, no word is taken, and nothing else changes (R39, R178). -/
def Obligations.HostPhaseTwo : Prop :=
  ∀ (s : State) (as : List Agent), s.inp.sched = .host :: as → s.hostPending = true →
    ∃ t, step s = .next t ∧
      (∀ k, t.disp.grid.get k =
          match s.disp.gridPend.get k with
          | some e => some e
          | none => s.disp.grid.get k) ∧
        (∀ k, t.disp.gridPend.get k = none) ∧
        t.disp = { s.disp with grid := t.disp.grid, gridPend := t.disp.gridPend } ∧
        t.rtc =
          { s.rtc with
            clockTime := s.rtc.clockPend.host.getD s.rtc.clockTime
            alarmTime1 := s.rtc.al1Pend.host.getD s.rtc.alarmTime1
            alarmTime2 := s.rtc.al2Pend.host.getD s.rtc.alarmTime2
            clockPend := ⟨none, s.rtc.clockPend.recTask⟩
            al1Pend := ⟨none, s.rtc.al1Pend.recTask⟩
            al2Pend := ⟨none, s.rtc.al2Pend.recTask⟩ } ∧
        t.cfg = s.cfg ∧ t.led = s.led ∧ t.out = s.out ∧ t.inp = { s.inp with sched := as }

/-! ### The display unit -/

/-- `DSP.WRGRID` (R85): phase 1 in its step, phase 2 in the Host's next step. -/
def Obligations.WrgridIsTwoPhase : Prop :=
  ∀ (s : State) (idx : Fin 6) (seg : BitVec 14) (dots ub lb : Bool),
    decodeWord (packWord 0x01
        (idx.val * 2 ^ 23 + lb.toNat * 2 ^ 16 + ub.toNat * 2 ^ 15 + dots.toNat * 2 ^ 14 + seg.toNat)) =
        .instr (.dspWrgrid idx seg dots ub lb) ∧
      ∃ t, exec (.dspWrgrid idx seg dots ub lb) s = .next t ∧
        t = { s with
          disp := { s.disp with gridPend := s.disp.gridPend.set idx (some ⟨seg, dots, ub, lb⟩) }
          out := { s.out with outcome := .result .unit } } ∧
        (s.hostPending = false → ∀ as, ∃ u,
          step { t with inp := { t.inp with sched := .host :: as } } = .next u ∧
            u.disp.grid.get idx = some ⟨seg, dots, ub, lb⟩ ∧ u.disp.gridPend.get idx = none ∧
            (∀ k, k ≠ idx → u.disp.grid.get k = s.disp.grid.get k) ∧ u.rtc = s.rtc ∧ u.led = s.led)

/-- Bit by bit, the 17-bit frame of an entry, and that it stands in bits 16:0 of the entry's `DSP.WRGRID` word
(R52, R57). -/
def Obligations.FrameLayout : Prop :=
  ∀ e : GridEntry,
    (∀ j, j < 14 → (frame e).getLsbD j = e.seg.getLsbD j) ∧ (frame e).getLsbD 14 = e.dots ∧
      (frame e).getLsbD 15 = e.ub ∧ (frame e).getLsbD 16 = e.lb ∧
      ∀ k, bits (encode (.dspWrgrid k e.seg e.dots e.ub e.lb)) 16 0 = (frame e).toNat

/-- What the multiplex step reads of an entry (R37, R40): the entry where no write is pending, `unwritten`
included; each field the entry's or the pending one's where one is; some entry where the pending write is to
an unwritten one; and no cell changes. -/
def Obligations.GridReadMayTear : Prop :=
  ∀ (s : State) (k : Fin 6),
    (∃ n, (s.readGrid k).2 = { s with inp := { s.inp with draws := s.inp.draws + n } }) ∧
      (s.disp.gridPend.get k = none → (s.readGrid k).1 = s.disp.grid.get k) ∧
      (∀ v, s.disp.gridPend.get k = some v → ∃ e, (s.readGrid k).1 = some e ∧
        ∀ x, s.disp.grid.get k = some x →
          (e.seg = x.seg ∨ e.seg = v.seg) ∧ (e.dots = x.dots ∨ e.dots = v.dots) ∧
            (e.ub = x.ub ∨ e.ub = v.ub) ∧ (e.lb = x.lb ∨ e.lb = v.lb))

/-- One `ShiftBit` (R90), and that the seventeen of a frame leave the frame in the stages and the latch as it
was. -/
def Obligations.ShiftBitShiftsIn : Prop :=
  ∀ s : State, s.cfg.shiftOrder = .msbFirst →
    (∀ b : Bool, ∃ t, s.shiftBit b = t ∧ t.disp.srData = b ∧ t.disp.srClk = false ∧
      t.disp.srStage.getLsbD 0 = b ∧
      (∀ j, j < 16 → t.disp.srStage.getLsbD (j + 1) = s.disp.srStage.getLsbD j) ∧
      t.disp.srLatch = s.disp.srLatch ∧
      t.out.pins = s.out.pins ++ [⟨.srData, b⟩, ⟨.srClk, true⟩, ⟨.srClk, false⟩]) ∧
      ∀ f : Frame, (s.shiftFrame f).disp.srStage = f ∧ (s.shiftFrame f).disp.srLatch = s.disp.srLatch

/-- The multiplex step (R86 to R93): the next digit modulo 6 alone is enabled, stages and latch hold the frame
read, clock and strobe end low, the pins moved in the order of R95, and nothing else changes. The frame is that of
the entry where no write to it is pending, and of an entry mixed from the two, field by field, where one is (R40,
R89, R191); it is any frame where the entry is unwritten. -/
def Obligations.MuxStepResult : Prop :=
  ∀ (s : State) (as : List Agent), s.inp.sched = .muxIsr :: as → s.disp.dispEnabled = true →
    s.cfg.shiftOrder = .msbFirst →
      ∃ t k f n, step s = .next t ∧ k.val = (s.disp.muxIdx.val + 1) % 6 ∧
        (∀ e, s.disp.grid.get k = some e → s.disp.gridPend.get k = none → f = frame e) ∧
        (∀ x v, s.disp.grid.get k = some x → s.disp.gridPend.get k = some v → ∃ e, f = frame e ∧
          (e.seg = x.seg ∨ e.seg = v.seg) ∧ (e.dots = x.dots ∨ e.dots = v.dots) ∧
            (e.ub = x.ub ∨ e.ub = v.ub) ∧ (e.lb = x.lb ∨ e.lb = v.lb)) ∧
        t.disp =
          { s.disp with
            digEn := (Six.fill false).set k true
            muxIdx := k
            srStage := f
            srLatch := f
            srData := f.getLsbD 0
            srClk := false
            srStrobe := false } ∧
        t.out =
          { s.out with
            pins := s.out.pins ++
              ([0, 1, 2, 3, 4, 5].map (fun d => ⟨.digEn d, false⟩) ++
                [16, 15, 14, 13, 12, 11, 10, 9, 8, 7, 6, 5, 4, 3, 2, 1, 0].flatMap
                  (fun j => [⟨.srData, f.getLsbD j⟩, ⟨.srClk, true⟩, ⟨.srClk, false⟩]) ++
                [⟨.srStrobe, true⟩, ⟨.srStrobe, false⟩, ⟨.digEn k, true⟩]) } ∧
        t.cfg = s.cfg ∧ t.rtc = s.rtc ∧ t.led = s.led ∧
        t.inp = { s.inp with sched := as, draws := s.inp.draws + n }

/-- After `n` multiplex steps the digit index has advanced by `n` modulo 6, so six steps visit every digit
(R88). -/
def Obligations.SixStepsVisitEveryDigit : Prop :=
  ∀ (s : State) (n : Nat), s.disp.dispEnabled = true →
    (State.muxTurn^[n] s).disp.muxIdx.val = (s.disp.muxIdx.val + n) % 6 ∧
      (State.muxTurn^[n] s).disp.dispEnabled = true

/-- When a segment is lit (R99); and, where the display invariant holds, that at any observation at most one digit
is lit, and only the selected one, from what the stages last shifted in (R94). -/
def Obligations.AtMostOneDigitLit : Prop :=
  ∀ s : State,
    (∀ (k : Fin 6) (j : Fin 17) (c : Nat), s.lit k j c = true ↔
      s.disp.dispEnabled = true ∧ s.disp.boostEn = true ∧ s.disp.heaterEn = true ∧
        s.disp.digEn.get k = true ∧ s.disp.srLatch.getLsbD j.val = true ∧ s.gate c = true) ∧
      (s.DisplayInv → ∀ (k : Fin 6) (j : Fin 17) (c : Nat), s.lit k j c = true →
        k = s.disp.muxIdx ∧ s.disp.srStage.getLsbD j.val = true ∧ s.gate c = true ∧
          ∀ (k' : Fin 6) (j' : Fin 17) (c' : Nat), s.lit k' j' c' = true → k' = k)

/-- The brightness gate (R98): where the display is visible, and in how many of the TIMER_TOP + 1 counter
values. -/
def Obligations.GateVisibleFraction : Prop :=
  ∀ s : State,
    (s.cfg.gatePolarity = .visibleBelow →
        (∀ c, s.gate c = true ↔ c < s.disp.brightCmp) ∧
          s.visibleCount = min s.disp.brightCmp (s.cfg.timerTop + 1)) ∧
      (s.cfg.gatePolarity = .visibleAtOrAbove →
        (∀ c, s.gate c = true ↔ s.disp.brightCmp ≤ c) ∧
          s.visibleCount = s.cfg.timerTop + 1 - min s.disp.brightCmp (s.cfg.timerTop + 1))

/-- `DSP.SETBRIGHT` (R96): the linear mapping of 1..100 with division toward zero, always between the two ends;
outside, a no-op. `DSP.GETCMP` (R97) reads the compare value back. -/
def Obligations.SetbrightAndGetcmp : Prop :=
  ∀ (s : State) (pct : BitVec 7),
    decodeWord (packWord 0x02 pct.toNat) = .instr (.dspSetbright pct) ∧
      decodeWord (packWord 0x03 0) = .instr .dspGetcmp ∧
      exec .dspGetcmp s =
        .next { s with out := { s.out with outcome := .result (.number s.disp.brightCmp) } } ∧
      ∃ t, exec (.dspSetbright pct) s = .next t ∧
        t = { s with
          disp := { s.disp with brightCmp := t.disp.brightCmp }
          out := { s.out with outcome := .result .unit } } ∧
        (pct.toNat < 1 ∨ 100 < pct.toNat → t.disp.brightCmp = s.disp.brightCmp) ∧
        (1 ≤ pct.toNat → pct.toNat ≤ 100 →
          (t.disp.brightCmp : Int) =
              s.cfg.cmpAt1 + Int.tdiv ((pct.toNat - 1) * ((s.cfg.cmpAt100 : Int) - s.cfg.cmpAt1)) 99 ∧
            min s.cfg.cmpAt1 s.cfg.cmpAt100 ≤ t.disp.brightCmp ∧
            t.disp.brightCmp ≤ max s.cfg.cmpAt1 s.cfg.cmpAt100 ∧
            (pct.toNat = 1 → t.disp.brightCmp = s.cfg.cmpAt1) ∧
            (pct.toNat = 100 → t.disp.brightCmp = s.cfg.cmpAt100))

/-- `DSP.ENABLE` (R100) and `DSP.DISABLE` (R101), each a guard that does nothing the second time. -/
def Obligations.EnableDisableSwitchTheDisplay : Prop :=
  ∀ s : State,
    decodeWord (packWord 0x04 0) = .instr .dspEnable ∧
      decodeWord (packWord 0x05 0) = .instr .dspDisable ∧
      exec .dspEnable s =
        .next
          (if s.disp.dispEnabled = true then { s with out := { s.out with outcome := .result .unit } }
          else
            { s with
              disp := { s.disp with heaterEn := true, boostEn := true, dispEnabled := true }
              out :=
                { s.out with
                  outcome := .result .unit
                  pins := s.out.pins ++ [⟨.heaterEn, true⟩, ⟨.boostEn, true⟩] } }) ∧
      exec .dspDisable s =
        .next
          (if s.disp.dispEnabled = false then { s with out := { s.out with outcome := .result .unit } }
          else
            { s with
              disp :=
                { s.disp with
                  dispEnabled := false
                  digEn := ⟨false, false, false, false, false, false⟩
                  boostEn := false
                  heaterEn := false }
              out :=
                { s.out with
                  outcome := .result .unit
                  pins := s.out.pins ++
                    [⟨.digEn 0, false⟩, ⟨.digEn 1, false⟩, ⟨.digEn 2, false⟩, ⟨.digEn 3, false⟩,
                      ⟨.digEn 4, false⟩, ⟨.digEn 5, false⟩, ⟨.boostEn, false⟩, ⟨.heaterEn, false⟩] } })

/-! ### The RTC client -/

/-- BCD (R11), and the table of register byte formats (R54): for each BCD register what a byte stands for and
what is written for a value; the other registers hold the raw byte. -/
def Obligations.RegisterByteFormats : Prop :=
  ∀ p : Params,
    (∀ v, v ≤ 99 →
        (bcd v).toNat / 16 = v / 10 ∧ (bcd v).toNat % 16 = v % 10 ∧ bcdValid (bcd v) = true) ∧
    (∀ b : Byte, (bcdValid b = true ↔ b.toNat / 16 ≤ 9 ∧ b.toNat % 16 ≤ 9) ∧
        unbcd b = 10 * (b.toNat / 16) + b.toNat % 16) ∧
    (∀ r mask base low high write,
        (r, mask, base, low, high, write) ∈
          [(RtcReg.seconds, p.masks.sec, 0, 0, 59, (0x00 : Byte)),
            (.minutes, p.masks.min, 0, 0, 59, 0x00),
            (.hour, p.masks.hour, 0, 0, 23, p.masks.hourWrite),
            (.date, p.masks.date, 0, 1, 31, 0x00),
            (.monthCentury, p.masks.month, 0, 1, 12, p.masks.monthWrite),
            (.year, p.masks.year, 2000, 2000, 2099, 0x00),
            (.alarm1Seconds, p.masks.asec, 0, 0, 59, 0x00),
            (.alarm1Minutes, p.masks.amin, 0, 0, 59, 0x00),
            (.alarm1Hours, p.masks.ahour, 0, 0, 23, 0x00),
            (.alarm2Seconds, p.masks.asec, 0, 0, 59, 0x00),
            (.alarm2Minutes, p.masks.amin, 0, 0, 59, 0x00),
            (.alarm2Hours, p.masks.ahour, 0, 0, 23, 0x00)] →
          (∀ b v, p.dec r b = some v ↔
            bcdValid (b &&& mask) = true ∧ v = base + unbcd (b &&& mask) ∧ low ≤ v ∧ v ≤ high) ∧
          ∀ v, low ≤ v → v ≤ high → p.enc r v = bcd (v - base) ||| write) ∧
      ∀ r ∈ [RtcReg.dayOfWeek, .control, .status, .agingOffset, .temperatureMsb, .temperatureLsb],
        (∀ b, p.dec r b = some b.toNat) ∧ ∀ b : Byte, p.enc r b.toNat = b

/-- `RTC.RDREG` (R114) and `RTC.WRREG` (R115): one transaction, the byte as it is, the oracle's answer the
result, and no cell of the block written (R105, R106); and `RTC.SELFTEST` (R124): one probe (R108). -/
def Obligations.RawRegisterAccessAndProbe : Prop :=
  ∀ (s : State) (reg : RtcReg) (val : Byte),
    decodeWord (packWord 0x08 (reg.code * 2 ^ 16)) = .instr (.rtcRdreg reg) ∧
      decodeWord (packWord 0x09 (reg.code * 2 ^ 16 + val.toNat)) = .instr (.rtcWrreg reg val) ∧
      decodeWord (packWord 0x14 0) = .instr .rtcSelftest ∧
      (∃ t, exec (.rtcRdreg reg) s = .next t ∧ s.SameCells t ∧
        s.Recorded t (.result (.optByte (s.byteAnswer (s.cfg.rtcAddr reg))))
          [.start, .read (s.cfg.rtcAddr reg), .stop]) ∧
      (∃ t, exec (.rtcWrreg reg val) s = .next t ∧ s.SameCells t ∧
        s.Recorded t (.result (.bool s.ackAnswer)) [.start, .write (s.cfg.rtcAddr reg) val, .stop]) ∧
      ∃ t, exec .rtcSelftest s = .next t ∧ s.SameCells t ∧
        s.Recorded t (.result (.bool s.ackAnswer)) [.start, .probe, .stop]

/-- `RTC.UPDREG` (R116) and `RTC.SETFLAG` (R112, R123): the read-modify-write of one bit, false only where the
read failed (R107). -/
def Obligations.BitUpdates : Prop :=
  ∀ (s : State) (reg : RtcReg) (bit : Fin 8) (v : Bool) (f : RtcFlag) (on : Bool),
    decodeWord (packWord 0x0A (reg.code * 2 ^ 16 + bit.val * 2 ^ 8 + v.toNat)) =
        .instr (.rtcUpdreg reg bit v) ∧
      decodeWord (packWord 0x13 (f.code * 2 ^ 16 + on.toNat)) = .instr (.rtcSetflag f on) ∧
      (∃ t, exec (.rtcUpdreg reg bit v) s = .next t ∧ s.SameCells t ∧
        match s.byteAnswer (s.cfg.rtcAddr reg) with
        | none => s.Recorded t (.result (.bool false)) [.start, .read (s.cfg.rtcAddr reg), .stop]
        | some b => ∃ b' : Byte,
          (∀ j : Nat, b'.getLsbD j = if j = bit.val then v else b.getLsbD j) ∧
            s.Recorded t (.result (.bool true))
              [.start, .read (s.cfg.rtcAddr reg), .write (s.cfg.rtcAddr reg) b', .stop]) ∧
      ∃ t, exec (.rtcSetflag f on) s = .next t ∧
        exec (.rtcUpdreg (s.cfg.flagPlace f).reg (s.cfg.flagPlace f).bit
          (if on = true then (s.cfg.flagPlace f).on else !(s.cfg.flagPlace f).on)) s = .next t

/-- `RTC.GETTIME` (R117), `RTC.GETAL1` and `RTC.GETAL2` (R121): one read of seconds, minutes and hours; its
outcome by R110. -/
def Obligations.TimeGetters : Prop :=
  decodeWord (packWord 0x0B 0) = .instr .rtcGettime ∧
    decodeWord (packWord 0x0F 0) = .instr .rtcGetal1 ∧
    decodeWord (packWord 0x10 0) = .instr .rtcGetal2 ∧
    ∀ (s : State) (i : Instr) (rs : Regs3),
      (i, rs) ∈
        [(.rtcGettime, ⟨.seconds, .minutes, .hour⟩),
          (.rtcGetal1, ⟨.alarm1Seconds, .alarm1Minutes, .alarm1Hours⟩),
          (.rtcGetal2, ⟨.alarm2Seconds, .alarm2Minutes, .alarm2Hours⟩)] →
        ∃ t f, exec i s = .next t ∧ s.SameCells t ∧ Params.ReadsAs s.cfg rs (s.readAnswer rs) f ∧
          s.GetterEnds t .optTime f ∧ t.out.refused = s.out.refused ∧ t.out.pins = s.out.pins ∧
          t.out.bus = s.out.bus ++
            [.start, .read (s.cfg.rtcAddr rs.r1), .read (s.cfg.rtcAddr rs.r2),
              .read (s.cfg.rtcAddr rs.r3), .stop]

/-- `RTC.GETDATE` (R119). -/
def Obligations.GetdateReadsTheDate : Prop :=
  decodeWord (packWord 0x0D 0) = .instr .rtcGetdate ∧
    ∀ s : State, ∃ t f, exec .rtcGetdate s = .next t ∧ s.SameCells t ∧
      Params.ReadsAsDate s.cfg (s.readAnswer ⟨.date, .monthCentury, .year⟩) f ∧
      s.GetterEnds t .optDate f ∧ t.out.refused = s.out.refused ∧ t.out.pins = s.out.pins ∧
      t.out.bus = s.out.bus ++
        [.start, .read (s.cfg.rtcAddr .date), .read (s.cfg.rtcAddr .monthCentury),
          .read (s.cfg.rtcAddr .year), .stop]

/-- `RTC.SETTIME` (R118) and `RTC.SETDATE` (R120): one write of three bytes, or, with an operand out of range,
no traffic, no cell written and any Boolean (R111). -/
def Obligations.TimeAndDateSetters : Prop :=
  ∀ (s : State) (h m sec : BitVec 8) (day : BitVec 5) (month : BitVec 4) (year : BitVec 17),
    decodeWord (packWord 0x0C (h.toNat * 2 ^ 16 + m.toNat * 2 ^ 8 + sec.toNat)) =
        .instr (.rtcSettime h m sec) ∧
      decodeWord (packWord 0x0E (day.toNat * 2 ^ 21 + month.toNat * 2 ^ 17 + year.toNat)) =
        .instr (.rtcSetdate day month year) ∧
      (∃ t, exec (.rtcSettime h m sec) s = .next t ∧
        if h.toNat < 24 ∧ m.toNat < 60 ∧ sec.toNat < 60 then
          s.SameCells t ∧
            s.Recorded t (.result (.bool s.ackAnswer))
              [.start, .write (s.cfg.rtcAddr .seconds) (bcd sec.toNat),
                .write (s.cfg.rtcAddr .minutes) (bcd m.toNat),
                .write (s.cfg.rtcAddr .hour) (bcd h.toNat ||| s.cfg.masks.hourWrite), .stop]
        else
          ∃ b, t = { s with
            inp := { s.inp with draws := s.inp.draws + 1 }
            out := { s.out with outcome := .result (.bool b) } }) ∧
      ∃ t, exec (.rtcSetdate day month year) s = .next t ∧
        if 1 ≤ day.toNat ∧ day.toNat ≤ 31 ∧ 1 ≤ month.toNat ∧ month.toNat ≤ 12 ∧
            2000 ≤ year.toNat ∧ year.toNat ≤ 2099 then
          s.SameCells t ∧
            s.Recorded t (.result (.bool s.ackAnswer))
              [.start, .write (s.cfg.rtcAddr .date) (bcd day.toNat),
                .write (s.cfg.rtcAddr .monthCentury) (bcd month.toNat ||| s.cfg.masks.monthWrite),
                .write (s.cfg.rtcAddr .year) (bcd (year.toNat - 2000)), .stop]
        else
          ∃ b, t = { s with
            inp := { s.inp with draws := s.inp.draws + 1 }
            out := { s.out with outcome := .result (.bool b) } }

/-- `RTC.SETAL1` and `RTC.SETAL2` (R122): the alarm's three bytes and then its mask bit set, in one transaction
(R113), or the no-op of R111. -/
def Obligations.AlarmSetters : Prop :=
  ∀ (s : State) (h m sec : BitVec 8),
    decodeWord (packWord 0x11 (h.toNat * 2 ^ 16 + m.toNat * 2 ^ 8 + sec.toNat)) =
        .instr (.rtcSetal1 h m sec) ∧
      decodeWord (packWord 0x12 (h.toNat * 2 ^ 16 + m.toNat * 2 ^ 8 + sec.toNat)) =
        .instr (.rtcSetal2 h m sec) ∧
      ∀ (i : Instr) (rs : Regs3) (place : MaskPlace),
        (i, rs, place) ∈
          [(.rtcSetal1 h m sec, ⟨.alarm1Seconds, .alarm1Minutes, .alarm1Hours⟩, s.cfg.alarmMask1),
            (.rtcSetal2 h m sec, ⟨.alarm2Seconds, .alarm2Minutes, .alarm2Hours⟩, s.cfg.alarmMask2)] →
          ∃ t, exec i s = .next t ∧
            if h.toNat < 24 ∧ m.toNat < 60 ∧ sec.toNat < 60 then
              s.SameCells t ∧ ∃ tail ok,
                s.Recorded t (.result (.bool (s.ackAnswer && ok)))
                  ([.start, .write (s.cfg.rtcAddr rs.r1) (bcd sec.toNat),
                    .write (s.cfg.rtcAddr rs.r2) (bcd m.toNat),
                    .write (s.cfg.rtcAddr rs.r3) (bcd h.toNat), .read place.addr] ++ tail ++ [.stop]) ∧
                  match s.maskAnswer
                    [(s.cfg.rtcAddr rs.r1, bcd sec.toNat), (s.cfg.rtcAddr rs.r2, bcd m.toNat),
                      (s.cfg.rtcAddr rs.r3, bcd h.toNat)] place.addr with
                  | none => tail = [] ∧ ok = false
                  | some b => ok = true ∧ ∃ b' : Byte, tail = [.write place.addr b'] ∧
                    ∀ j : Nat, b'.getLsbD j = (decide (j = place.bit.val) || b.getLsbD j)
            else
              ∃ b, t = { s with
                inp := { s.inp with draws := s.inp.draws + 1 }
                out := { s.out with outcome := .result (.bool b) } }

/-- What the RTC commands do to the reference simulator's bytes (R109): a read or a probe stores nothing; a raw
write, a time or a date write stores its bytes at its registers' addresses and leaves every other address as
it was; a failed transaction stores nothing. Its memory is taken in canonical form, which every step keeps. -/
def Obligations.SimRtcStores : Prop :=
  ∀ (s : State) (c : SimRtc), s.inp.sim = some c → Memory.wf c.simReg = true →
    (∀ i ∈ [Instr.rtcGettime, .rtcGetdate, .rtcGetal1, .rtcGetal2, .rtcSelftest],
        ∃ t, exec i s = .next t ∧ t.inp.sim = some ⟨c.simReg, c.script.tail⟩) ∧
      (∀ reg, ∃ t, exec (.rtcRdreg reg) s = .next t ∧ t.inp.sim = some ⟨c.simReg, c.script.tail⟩) ∧
      (∀ reg val, ∃ t m, exec (.rtcWrreg reg val) s = .next t ∧
        t.inp.sim = some ⟨m, c.script.tail⟩ ∧
        ∀ a, Memory.read m a =
          if c.script.headD true = true ∧ a = (s.cfg.rtcAddr reg).toNat then val
          else Memory.read c.simReg a) ∧
      (∀ h m sec : BitVec 8, h.toNat < 24 → m.toNat < 60 → sec.toNat < 60 →
        ∃ t mem, exec (.rtcSettime h m sec) s = .next t ∧ t.inp.sim = some ⟨mem, c.script.tail⟩ ∧
          ∀ a, Memory.read mem a =
            if c.script.headD true = false then Memory.read c.simReg a
            else if a = (s.cfg.rtcAddr .hour).toNat then bcd h.toNat ||| s.cfg.masks.hourWrite
            else if a = (s.cfg.rtcAddr .minutes).toNat then bcd m.toNat
            else if a = (s.cfg.rtcAddr .seconds).toNat then bcd sec.toNat
            else Memory.read c.simReg a) ∧
      ∀ (day : BitVec 5) (month : BitVec 4) (year : BitVec 17), validDate day month year = true →
        ∃ t mem, exec (.rtcSetdate day month year) s = .next t ∧
          t.inp.sim = some ⟨mem, c.script.tail⟩ ∧
          ∀ a, Memory.read mem a =
            if c.script.headD true = false then Memory.read c.simReg a
            else if a = (s.cfg.rtcAddr .year).toNat then bcd (year.toNat - 2000)
            else if a = (s.cfg.rtcAddr .monthCentury).toNat then bcd month.toNat ||| s.cfg.masks.monthWrite
            else if a = (s.cfg.rtcAddr .date).toNat then bcd day.toNat
            else Memory.read c.simReg a

/-- What a bit update and an alarm setter do to the reference simulator's bytes (R109): one byte read, one bit
of it set, and for the alarm setter its three time bytes before that; every other address as it was. -/
def Obligations.SimRtcBitStores : Prop :=
  ∀ (s : State) (c : SimRtc), s.inp.sim = some c → Memory.wf c.simReg = true →
    (∀ (reg : RtcReg) (bit : Fin 8) (v : Bool), ∃ t m, exec (.rtcUpdreg reg bit v) s = .next t ∧
        t.inp.sim = some ⟨m, c.script.tail⟩ ∧
        ∀ a, Memory.read m a =
          if c.script.headD true = true ∧ a = (s.cfg.rtcAddr reg).toNat then
            setBit (Memory.read c.simReg a) bit v
          else Memory.read c.simReg a) ∧
      ∀ (n : AlarmNo) (h m sec : BitVec 8), h.toNat < 24 → m.toNat < 60 → sec.toNat < 60 →
        ∃ t mem, exec (match n with | .one => .rtcSetal1 h m sec | .two => .rtcSetal2 h m sec) s = .next t ∧
          t.inp.sim = some ⟨mem, c.script.tail⟩ ∧
          ∀ a, Memory.read mem a =
            if c.script.headD true = false then Memory.read c.simReg a
            else
              let timed :=
                if a = (s.cfg.rtcAddr (alarmRegs n).r3).toNat then bcd h.toNat
                else if a = (s.cfg.rtcAddr (alarmRegs n).r2).toNat then bcd m.toNat
                else if a = (s.cfg.rtcAddr (alarmRegs n).r1).toNat then bcd sec.toNat
                else Memory.read c.simReg a
              if a = (s.cfg.maskPlace n).addr.toNat then setBit timed (s.cfg.maskPlace n).bit true else timed

/-- The editing round trip under the reference simulator (R109, R121, R122): an alarm set is the alarm read
back, wherever the mask bit sits, provided it is bit 7 and the alarm masks are the usual ones, which drop it. -/
def Obligations.SetAlarmThenGetAlarm : Prop :=
  ∀ (s : State) (c : SimRtc) (n : AlarmNo) (h m sec : BitVec 8),
    s.inp.sim = some c → Memory.wf c.simReg = true → c.script = [] → s.cfg.legal = true →
      s.cfg.masks.asec = 0x7F → s.cfg.masks.amin = 0x7F → s.cfg.masks.ahour = 0x3F →
      (s.cfg.maskPlace n).bit = 7 → h.toNat < 24 → m.toNat < 60 → sec.toNat < 60 →
        ∃ t u tm,
          exec (match n with | .one => .rtcSetal1 h m sec | .two => .rtcSetal2 h m sec) s = .next t ∧
            exec (match n with | .one => .rtcGetal1 | .two => .rtcGetal2) t = .next u ∧
            t.out.outcome = .result (.bool true) ∧ u.out.outcome = .result (.optTime (some tm)) ∧
            tm.h.val = h.toNat ∧ tm.m.val = m.toNat ∧ tm.s.val = sec.toNat

/-! ### The reconciliation commands -/

/-- `REC.SETMODE` (R143) and `REC.SETSTATE` (R144). -/
def Obligations.SetmodeAndSetstate : Prop :=
  ∀ (s : State) (mode : AlarmMode) (state : AlarmState),
    decodeWord (packWord 0x18 mode.code) = .instr (.recSetmode mode) ∧
      decodeWord (packWord 0x19 state.code) = .instr (.recSetstate state) ∧
      [AlarmMode.off.code, AlarmMode.alarm1.code, AlarmMode.alarm2.code, AlarmMode.both.code] =
        [0, 1, 2, 3] ∧
      [AlarmState.off.code, AlarmState.sunrise.code, AlarmState.vibration.code,
        AlarmState.snooze.code] = [0, 1, 2, 3] ∧
      exec (.recSetmode mode) s =
        .next { s with
          rtc := { s.rtc with alarmMode := mode }, out := { s.out with outcome := .result .unit } } ∧
      exec (.recSetstate state) s =
        .next { s with
          rtc := { s.rtc with alarmState := state }, out := { s.out with outcome := .result .unit } }

/-- `REC.SETCLOCK` (R145): the write of `RTC.SETTIME`, and phase 1 of the clock cache whatever the bus answered;
with an operand out of range no traffic, no cell written and any Boolean. -/
def Obligations.SetclockWritesChipAndCache : Prop :=
  ∀ (s : State) (h m sec : BitVec 8),
    decodeWord (packWord 0x1A (h.toNat * 2 ^ 16 + m.toNat * 2 ^ 8 + sec.toNat)) =
        .instr (.recSetclock h m sec) ∧
      ∃ t, exec (.recSetclock h m sec) s = .next t ∧
        if h.toNat < 24 ∧ m.toNat < 60 ∧ sec.toNat < 60 then
          ∃ u tm, exec (.rtcSettime h m sec) s = .next u ∧
            tm.h.val = h.toNat ∧ tm.m.val = m.toNat ∧ tm.s.val = sec.toNat ∧
            t = { u with
              rtc := { s.rtc with clockPend := { s.rtc.clockPend with host := some tm } } } ∧
            t.out.outcome = .result (.bool s.ackAnswer)
        else
          ∃ b, t = { s with
            inp := { s.inp with draws := s.inp.draws + 1 }
            out := { s.out with outcome := .result (.bool b) } }

/-- `REC.SETAL1` and `REC.SETAL2` (R146): the write of `RTC.SETAL1` or `RTC.SETAL2`, and phase 1 of the alarm's
cache whatever the bus answered; or the no-op. -/
def Obligations.CachedAlarmSetters : Prop :=
  ∀ (s : State) (h m sec : BitVec 8),
    decodeWord (packWord 0x1B (h.toNat * 2 ^ 16 + m.toNat * 2 ^ 8 + sec.toNat)) =
        .instr (.recSetal1 h m sec) ∧
      decodeWord (packWord 0x1C (h.toNat * 2 ^ 16 + m.toNat * 2 ^ 8 + sec.toNat)) =
        .instr (.recSetal2 h m sec) ∧
      ∃ t1 t2, exec (.recSetal1 h m sec) s = .next t1 ∧ exec (.recSetal2 h m sec) s = .next t2 ∧
        if h.toNat < 24 ∧ m.toNat < 60 ∧ sec.toNat < 60 then
          ∃ u1 u2 tm, exec (.rtcSetal1 h m sec) s = .next u1 ∧ exec (.rtcSetal2 h m sec) s = .next u2 ∧
            tm.h.val = h.toNat ∧ tm.m.val = m.toNat ∧ tm.s.val = sec.toNat ∧
            t1 = { u1 with rtc := { s.rtc with al1Pend := { s.rtc.al1Pend with host := some tm } } } ∧
            t2 = { u2 with rtc := { s.rtc with al2Pend := { s.rtc.al2Pend with host := some tm } } }
        else
          (∃ b, t1 = { s with
            inp := { s.inp with draws := s.inp.draws + 1 }
            out := { s.out with outcome := .result (.bool b) } }) ∧
            ∃ b, t2 = { s with
              inp := { s.inp with draws := s.inp.draws + 1 }
              out := { s.out with outcome := .result (.bool b) } }

/-- `REC.ISONLINE` (R147) and `REC.STATUS` (R149): the flag, and the eight bits of the status byte. -/
def Obligations.OnlineAndStatusBits : Prop :=
  ∀ s : State,
    decodeWord (packWord 0x1D 0) = .instr .recIsonline ∧
      decodeWord (packWord 0x1F 0) = .instr .recStatus ∧
      exec .recIsonline s =
        .next { s with out := { s.out with outcome := .result (.bit s.rtc.online) } } ∧
      ∃ b : BitVec 8,
        exec .recStatus s = .next { s with out := { s.out with outcome := .result (.status b) } } ∧
          b.toNat % 4 = s.rtc.alarmMode.code ∧ b.toNat / 4 % 4 = s.rtc.alarmState.code ∧
          b.getLsbD 4 = s.rtc.online ∧ b.getLsbD 5 = s.rtc.ready ∧
          b.getLsbD 6 =
            (decide (s.rtc.recPc = .sRead) || decide (s.rtc.recPc = .sCommit) ||
              decide (s.rtc.recPc = .sEval)) ∧
          b.getLsbD 7 = s.rtc.trigLatch

/-- `REC.READ` (R148): the cache where `RecTask` has no write pending to it, each field the cache's or the
pending one's where it has; no cell changes. -/
def Obligations.RecReadMayTear : Prop :=
  ∀ (s : State) (sel : CacheSel),
    decodeWord (packWord 0x1E sel.code) = .instr (.recRead sel) ∧
      [CacheSel.clock.code, CacheSel.al1.code, CacheSel.al2.code] = [0, 1, 2] ∧
      ∃ c n,
        exec (.recRead sel) s =
            .next { s with
              inp := { s.inp with draws := s.inp.draws + n }
              out := { s.out with outcome := .result (.time c) } } ∧
          ((s.rtc.pend sel).recTask = none → c = s.rtc.cache sel) ∧
          ∀ v, (s.rtc.pend sel).recTask = some v →
            (c.h = (s.rtc.cache sel).h ∨ c.h = v.h) ∧ (c.m = (s.rtc.cache sel).m ∨ c.m = v.m) ∧
              (c.s = (s.rtc.cache sel).s ∨ c.s = v.s)

/-! ### Time arithmetic -/

/-- `TIME.ADDH` (R78) and `TIME.SUBH` (R80): the hour moves modulo 24, nothing else. -/
def Obligations.HourArithmetic : Prop :=
  ∀ (s : State) (h : BitVec 5) (m sec : BitVec 6) (n : BitVec 8),
    h.toNat ≤ 23 → m.toNat ≤ 59 → sec.toNat ≤ 59 →
      decodeWord (packWord 0x20
          (n.toNat * 2 ^ 18 + h.toNat * 2 ^ 12 + m.toNat * 2 ^ 6 + sec.toNat)) =
          .instr (.timeAddh h m sec n) ∧
        decodeWord (packWord 0x22
          (n.toNat * 2 ^ 18 + h.toNat * 2 ^ 12 + m.toNat * 2 ^ 6 + sec.toNat)) =
          .instr (.timeSubh h m sec n) ∧
        (∃ r : Time,
          exec (.timeAddh h m sec n) s =
              .next { s with out := { s.out with outcome := .result (.time r) } } ∧
            r.h.val = (h.toNat + n.toNat) % 24 ∧ r.m.val = m.toNat ∧ r.s.val = sec.toNat ∧
            tod r = (3600 * h.toNat + 60 * m.toNat + sec.toNat + 3600 * n.toNat) % 86400) ∧
        ∃ r : Time,
          exec (.timeSubh h m sec n) s =
              .next { s with out := { s.out with outcome := .result (.time r) } } ∧
            (r.h.val : Int) = ((h.toNat : Int) - n.toNat) % 24 ∧ r.m.val = m.toNat ∧
            r.s.val = sec.toNat

/-- `TIME.ADDM` (R79) and `TIME.SUBM` (R81), with and without the carry into the hour. -/
def Obligations.MinuteArithmetic : Prop :=
  ∀ (s : State) (h : BitVec 5) (m sec : BitVec 6) (n : BitVec 8),
    h.toNat ≤ 23 → m.toNat ≤ 59 → sec.toNat ≤ 59 →
      decodeWord (packWord 0x21
          (n.toNat * 2 ^ 18 + h.toNat * 2 ^ 12 + m.toNat * 2 ^ 6 + sec.toNat)) =
          .instr (.timeAddm h m sec n) ∧
        decodeWord (packWord 0x23
          (n.toNat * 2 ^ 18 + h.toNat * 2 ^ 12 + m.toNat * 2 ^ 6 + sec.toNat)) =
          .instr (.timeSubm h m sec n) ∧
        ∀ (i : Instr) (d : Int),
          (i, d) ∈ [(.timeAddm h m sec n, (n.toNat : Int)), (.timeSubm h m sec n, -(n.toNat : Int))] →
            ∃ r : Time,
              exec i s = .next { s with out := { s.out with outcome := .result (.time r) } } ∧
                r.s.val = sec.toNat ∧
                if s.cfg.timeMinuteCarry = true then
                  (tod r : Int) = (3600 * h.toNat + 60 * m.toNat + sec.toNat + 60 * d) % 86400
                else r.h.val = h.toNat ∧ (r.m.val : Int) = ((m.toNat : Int) + d) % 60

/-- `TIME.ADDS` (R82): whole time-of-day arithmetic modulo 24:00:00; and `TIME.NORM5` (R83): the minute to the
lower multiple of 5. -/
def Obligations.SecondsAndNormalisation : Prop :=
  ∀ (s : State) (h : BitVec 5) (m sec : BitVec 6) (n : BitVec 8),
    h.toNat ≤ 23 → m.toNat ≤ 59 → sec.toNat ≤ 59 →
      decodeWord (packWord 0x24
          (n.toNat * 2 ^ 18 + h.toNat * 2 ^ 12 + m.toNat * 2 ^ 6 + sec.toNat)) =
          .instr (.timeAdds h m sec n) ∧
        decodeWord (packWord 0x25 (h.toNat * 2 ^ 12 + m.toNat * 2 ^ 6 + sec.toNat)) =
          .instr (.timeNorm5 h m sec) ∧
        (∃ r : Time,
          exec (.timeAdds h m sec n) s =
              .next { s with out := { s.out with outcome := .result (.time r) } } ∧
            tod r = (3600 * h.toNat + 60 * m.toNat + sec.toNat + n.toNat) % 86400) ∧
        ∃ r : Time,
          exec (.timeNorm5 h m sec) s =
              .next { s with out := { s.out with outcome := .result (.time r) } } ∧
            r.h.val = h.toNat ∧ r.m.val = m.toNat - m.toNat % 5 ∧ r.s.val = sec.toNat

/-- The laws of Time arithmetic (R84). -/
def Obligations.TimeLaws : Prop :=
  ∀ (t : Time) (n : Nat),
    addHours (subHours t n) n = t ∧ subHours (addHours t n) n = t ∧
      addMinutes true (subMinutes true t n) n = t ∧ addSeconds t 86400 = t ∧
      norm5 (norm5 t) = norm5 t ∧ (norm5 t).m.val % 5 = 0 ∧ addHours t n = addHours t (n % 24)

/-- A `TIME` instruction whose operand is no legal Time has only refused words; run, it is that refusal, and
nothing but `refused` and the outcome changes (R62, R72, R168; the model's choice, log 18). -/
def Obligations.IllegalTimeOperandIsRefused : Prop :=
  ∀ (s : State) (h : BitVec 5) (m sec : BitVec 6) (n : BitVec 8),
    ¬ (h.toNat ≤ 23 ∧ m.toNat ≤ 59 ∧ sec.toNat ≤ 59) →
      ∀ i ∈ [Instr.timeAddh h m sec n, .timeAddm h m sec n, .timeSubh h m sec n, .timeSubm h m sec n,
          .timeAdds h m sec n, .timeNorm5 h m sec],
        i.wellFormed = false ∧ decodeWord (encode i) = .reserved .illegalTime ∧
          exec i s = .next { s with
            out := { s.out with refused := true, outcome := .refuse (.reservedEncoding (encode i)) } }

/-! ### The LED unit -/

/-- `PWM.SETDUTY` (R152) and `LED.SETLEVEL` (R155): one cell of one channel, or the refusal `ValueRange` above
the range. -/
def Obligations.SetdutyAndSetlevel : Prop :=
  ∀ (s : State) (ch : Fin 6) (val : BitVec 16),
    decodeWord (packWord 0x28 (ch.val * 2 ^ 22 + val.toNat)) = .instr (.pwmSetduty ch val) ∧
      decodeWord (packWord 0x2B (ch.val * 2 ^ 22 + val.toNat)) = .instr (.ledSetlevel ch val) ∧
      exec (.pwmSetduty ch val) s =
        .next
          (if val.toNat > s.cfg.dutyMax then
            { s with
              out :=
                { s.out with
                  refused := true
                  outcome := .refuse (.valueRange (packWord 0x28 (ch.val * 2 ^ 22 + val.toNat))) } }
          else
            { s with
              led := { s.led with
                chan := s.led.chan.set ch { s.led.chan.get ch with duty := val.toNat } }
              out := { s.out with outcome := .result .unit } }) ∧
      exec (.ledSetlevel ch val) s =
        .next
          (if val.toNat > s.cfg.levelMax then
            { s with
              out :=
                { s.out with
                  refused := true
                  outcome := .refuse (.valueRange (packWord 0x2B (ch.val * 2 ^ 22 + val.toNat))) } }
          else
            { s with
              led := { s.led with
                chan := s.led.chan.set ch { s.led.chan.get ch with target := val.toNat } }
              out := { s.out with outcome := .result .unit } })

/-- `PWM.START` (R153) and `PWM.STOP` (R154): the run bit of one channel and nothing else; and the output of a
channel (R150): its duty while it runs, low while it does not. -/
def Obligations.StartAndStop : Prop :=
  ∀ (s : State) (ch : Fin 6),
    decodeWord (packWord 0x29 (ch.val * 2 ^ 22)) = .instr (.pwmStart ch) ∧
      decodeWord (packWord 0x2A (ch.val * 2 ^ 22)) = .instr (.pwmStop ch) ∧
      exec (.pwmStart ch) s =
        .next { s with
          led := { s.led with chan := s.led.chan.set ch { s.led.chan.get ch with run := true } }
          out := { s.out with outcome := .result .unit } } ∧
      exec (.pwmStop ch) s =
        .next { s with
          led := { s.led with chan := s.led.chan.set ch { s.led.chan.get ch with run := false } }
          out := { s.out with outcome := .result .unit } } ∧
      s.ledOutput ch = (if (s.led.chan.get ch).run = true then (s.led.chan.get ch).duty else 0) ∧
      s.ledVector ch = ((s.led.chan.get ch).run, (s.led.chan.get ch).duty)

/-- `STL.FRAMECLR` (R160), `STL.ALARMLEDS` (R161) and `STL.FLASH` (R162). -/
def Obligations.SequencerCommands : Prop :=
  ∀ (s : State) (a1 a2 : Bool),
    decodeWord (packWord 0x30 0) = .instr .stlFrameclr ∧
      decodeWord (packWord 0x31 (a2.toNat * 2 + a1.toNat)) = .instr (.stlAlarmleds a1 a2) ∧
      decodeWord (packWord 0x32 1) = .instr (.stlFlash .green) ∧
      decodeWord (packWord 0x32 2) = .instr (.stlFlash .red) ∧
      exec .stlFrameclr s =
        .next { s with
          led := { s.led with stlAl1 := false, stlAl2 := false }
          out := { s.out with outcome := .result .unit } } ∧
      exec (.stlAlarmleds a1 a2) s =
        .next { s with
          led := { s.led with stlAl1 := a1, stlAl2 := a2 }
          out := { s.out with outcome := .result .unit } } ∧
      exec (.stlFlash .green) s =
        .next { s with
          led := { s.led with flashCol := .green, flashLeft := s.cfg.flashTicks }
          out := { s.out with outcome := .result .unit } } ∧
      exec (.stlFlash .red) s =
        .next { s with
          led := { s.led with flashCol := .red, flashLeft := s.cfg.flashTicks }
          out := { s.out with outcome := .result .unit } }

/-- `STRIP.TOGGLE` (R164) and `STRIP.NUDGE` (R165), under every `CCT_MIX`: each is ended by a mix, which sets the
targets of channels 4 and 5 alone; the linear mix of R163 gives them these values. -/
def Obligations.StripCommandsMix : Prop :=
  ∀ (s : State) (sel : StripSel) (up : Bool),
    decodeWord (packWord 0x38 0) = .instr .stripToggle ∧
      decodeWord (packWord 0x39 (sel.code * 2 + up.toNat)) = .instr (.stripNudge sel up) ∧
      ∀ (i : Instr) (on : Bool) (b cct : Nat),
        (i = .stripToggle ∧ on = !s.led.stripOn ∧ b = s.led.stripB ∧ cct = s.led.stripCct ∨
          i = .stripNudge .brightness true ∧ on = s.led.stripOn ∧
            b = min (s.led.stripB + s.cfg.stripStepB) s.cfg.stripBMax ∧ cct = s.led.stripCct ∨
          i = .stripNudge .brightness false ∧ on = s.led.stripOn ∧
            b = min (s.led.stripB - s.cfg.stripStepB) s.cfg.stripBMax ∧ cct = s.led.stripCct ∨
          i = .stripNudge .colour true ∧ on = s.led.stripOn ∧ b = s.led.stripB ∧
            cct = min (s.led.stripCct + s.cfg.stripStepC) s.cfg.cctMax ∨
          i = .stripNudge .colour false ∧ on = s.led.stripOn ∧ b = s.led.stripB ∧
            cct = min (s.led.stripCct - s.cfg.stripStepC) s.cfg.cctMax) →
          ∃ t, exec i s = .next t ∧
            t = { s with
              led := { s.led with chan := t.led.chan, stripOn := on, stripB := b, stripCct := cct }
              out := { s.out with outcome := .result .unit } } ∧
            (∀ c : Fin 6, t.led.chan.get c =
              if c = 4 ∨ c = 5 then
                { s.led.chan.get c with target := (t.led.chan.get c).target }
              else s.led.chan.get c) ∧
            (s.cfg.cctMix = .linear →
              (t.led.chan.get 4).target =
                (if on = true then b * (s.cfg.cctMax - cct) / s.cfg.cctMax else 0)) ∧
            (s.cfg.cctMix = .linear →
              (t.led.chan.get 5).target = (if on = true then b * cct / s.cfg.cctMax else 0))

/-- The sequencer part of the LED tick (R156, R158, R159): what it sets the targets of channels 0 to 3 to, how
the flash counts down, and that nothing outside the LED unit changes. -/
def Obligations.TickSetsTheTargets : Prop :=
  ∀ (s : State) (as : List Agent), s.inp.sched = .ledTimer :: as →
    ∃ t n, step s = .next t ∧
      (∃ col, col =
          (if 0 < s.led.flashLeft then s.led.flashCol
          else if s.rtc.online = false then .red else .dark) ∧
        (t.led.chan.get 0).target = (if col = .red then s.cfg.statusLevel else 0) ∧
        (t.led.chan.get 1).target = (if col = .green then s.cfg.statusLevel else 0)) ∧
      (s.rtc.alarmState = .off →
        (t.led.chan.get 2).target = (if s.led.stlAl1 = true then s.cfg.alarmLedLevel else 0) ∧
          (t.led.chan.get 3).target = (if s.led.stlAl2 = true then s.cfg.alarmLedLevel else 0)) ∧
      (s.rtc.alarmState ≠ .off → ∃ c, s.Sees .ledTimer .clock c ∧
        (t.led.chan.get 2).target = (if c.s.val % 2 = 0 then s.cfg.alarmLedLevel else 0) ∧
          (t.led.chan.get 3).target = (if c.s.val % 2 = 0 then s.cfg.alarmLedLevel else 0)) ∧
      (t.led.chan.get 4).target = (s.led.chan.get 4).target ∧
      (t.led.chan.get 5).target = (s.led.chan.get 5).target ∧
      t.led.flashLeft = s.led.flashLeft - 1 ∧
      t.led.flashCol = (if s.led.flashLeft = 1 then .dark else s.led.flashCol) ∧
      t.led =
        { s.led with
          chan := t.led.chan, flashLeft := t.led.flashLeft, flashCol := t.led.flashCol } ∧
      t.cfg = s.cfg ∧ t.disp = s.disp ∧ t.rtc = s.rtc ∧ t.out = s.out ∧
      t.inp = { s.inp with sched := as, draws := s.inp.draws + n }

/-- The ramp part of the LED tick (R156, R157), on every channel, toward the target its sequencer part left: the
level, and the duty only where the level moved. -/
def Obligations.TickRampsEveryChannel : Prop :=
  ∀ (s : State) (as : List Agent), s.inp.sched = .ledTimer :: as →
    ∃ t, step s = .next t ∧
      ∀ c : Fin 6,
        (t.led.chan.get c).run = (s.led.chan.get c).run ∧
          (t.led.chan.get c).level =
            (if (s.led.chan.get c).level < (t.led.chan.get c).target then
              min (t.led.chan.get c).target ((s.led.chan.get c).level + s.cfg.rampStep.get c)
            else if (t.led.chan.get c).target < (s.led.chan.get c).level then
              max (t.led.chan.get c).target ((s.led.chan.get c).level - s.cfg.rampStep.get c)
            else (s.led.chan.get c).level) ∧
          (t.led.chan.get c).duty =
            (if (t.led.chan.get c).level ≠ (s.led.chan.get c).level then
              s.cfg.gamma.getD (t.led.chan.get c).level 0
            else (s.led.chan.get c).duty)

/-- With its target left alone, a channel's level goes to it by its step in each tick, never past it, and is
there once the steps cover the distance (R157). -/
def Obligations.RampReachesTheTarget : Prop :=
  ∀ (p : Params) (step : Nat) (c : Channel) (n : Nat), 1 ≤ step →
    ∃ d, (rampChannel p step)^[n] c = d ∧ d.target = c.target ∧ d.run = c.run ∧
      (c.level ≤ c.target → d.level = min c.target (c.level + n * step)) ∧
      (c.target ≤ c.level → d.level = max c.target (c.level - n * step)) ∧
      (c.target ≤ c.level + n * step → c.level ≤ c.target + n * step → d.level = c.target)

/-- A flash started by `STL.FLASH` sets its colour's target on exactly the next FLASH_TICKS ticks, and is then
over (R159, R162). -/
def Obligations.FlashLastsFlashTicks : Prop :=
  ∀ (s : State) (col : FlashColour), 1 ≤ s.cfg.flashTicks →
    ∃ t, exec (.stlFlash col) s = .next t ∧
      (∀ n, n < s.cfg.flashTicks → ∃ u, State.ledTick^[n + 1] t = u ∧
        (u.led.chan.get 0).target = (if col = .red then s.cfg.statusLevel else 0) ∧
        (u.led.chan.get 1).target = (if col = .green then s.cfg.statusLevel else 0) ∧
        u.led.flashLeft = s.cfg.flashTicks - (n + 1)) ∧
      ∃ u, State.ledTick^[s.cfg.flashTicks] t = u ∧ u.led.flashLeft = 0 ∧ u.led.flashCol = .dark

/-! ### The reconciliation task -/

/-- The four initialisation steps (R128 to R131): a flag off, the interrupt pin on, the two alarm flags off;
then on, or, where the read failed, back to the first with `online` cleared (R127). -/
def Obligations.BootstrapInitSteps : Prop :=
  ∀ (s : State) (as : List Agent) (pc next : RecPc) (f : RtcFlag) (on : Bool),
    s.inp.sched = .recTask :: as → s.recPending = false → s.rtc.recPc = pc →
      (pc, f, on, next) ∈
        [(.bSqw, .sqw, false, .bInt), (.bInt, .intOut, true, .bA1f), (.bA1f, .a1f, false, .bA2f),
          (.bA2f, .a2f, false, .bRdt)] →
        ∃ t xs, step s = .next t ∧ s.RecOnly t (.start :: .read (s.cfg.rtcAddr (s.cfg.flagPlace f).reg) :: xs) ∧
          t.out.faults = s.out.faults ∧
          match s.byteAnswer (s.cfg.rtcAddr (s.cfg.flagPlace f).reg) with
          | none => xs = [.stop] ∧ t.rtc = { s.rtc with online := false, recPc := .bSqw }
          | some b =>
            t.rtc = { s.rtc with recPc := next } ∧ ∃ b' : Byte,
              xs = [.write (s.cfg.rtcAddr (s.cfg.flagPlace f).reg) b', .stop] ∧
                ∀ j : Nat, b'.getLsbD j =
                  if j = (s.cfg.flagPlace f).bit.val then
                    (if on = true then (s.cfg.flagPlace f).on else !(s.cfg.flagPlace f).on)
                  else b.getLsbD j

/-- The three bootstrap reads (R132, R133): the time kept in its temporary, or, on a failed read or on bad data,
which is recorded (R134), back to the first step with `online` cleared (R127). -/
def Obligations.BootstrapReads : Prop :=
  ∀ (s : State) (as : List Agent) (pc : RecPc) (rs : Regs3) (keep : Time → RtcUnit),
    s.inp.sched = .recTask :: as → s.recPending = false → s.rtc.recPc = pc →
      (pc = .bRdt ∧ rs = ⟨.seconds, .minutes, .hour⟩ ∧
          (keep = fun tm => { s.rtc with tmpTime := some tm, recPc := .bRda1 }) ∨
        pc = .bRda1 ∧ rs = ⟨.alarm1Seconds, .alarm1Minutes, .alarm1Hours⟩ ∧
          (keep = fun tm => { s.rtc with tmpAl1 := some tm, recPc := .bRda2 }) ∨
        pc = .bRda2 ∧ rs = ⟨.alarm2Seconds, .alarm2Minutes, .alarm2Hours⟩ ∧
          (keep = fun tm => { s.rtc with tmpAl2 := some tm, recPc := .bFix1 })) →
        ∃ t f, step s = .next t ∧ Params.ReadsAs s.cfg rs (s.readAnswer rs) f ∧
          s.RecOnly t
            [.start, .read (s.cfg.rtcAddr rs.r1), .read (s.cfg.rtcAddr rs.r2),
              .read (s.cfg.rtcAddr rs.r3), .stop] ∧
          s.RecGetterFaults t f ∧
          t.rtc =
            match f with
            | .got tm => keep tm
            | .failed => { s.rtc with online := false, recPc := .bSqw }
            | .bad _ _ => { s.rtc with online := false, recPc := .bSqw }

/-- The normalisation of the alarms (R135): a minute that is a multiple of 5 takes no traffic; any other is
lowered in the temporary and written back as `RTC.SETAL1` and `RTC.SETAL2` write (R122): the three bytes and then
the mask bit set (R113), where its byte was answered; and the step goes on, whatever the bus answers. -/
def Obligations.BootstrapFixesMinutes : Prop :=
  ∀ (s : State) (as : List Agent) (tm : Time),
    s.inp.sched = .recTask :: as → s.recPending = false →
      ∀ (n : AlarmNo) (next : RecPc) (keep : Option Time → RtcUnit),
        (s.rtc.recPc = .bFix1 ∧ s.rtc.tmpAl1 = some tm ∧ n = .one ∧ next = .bFix2 ∧
            (keep = fun x => { s.rtc with tmpAl1 := x, recPc := .bFix2 }) ∨
          s.rtc.recPc = .bFix2 ∧ s.rtc.tmpAl2 = some tm ∧ n = .two ∧ next = .bCommit ∧
            (keep = fun x => { s.rtc with tmpAl2 := x, recPc := .bCommit })) →
          (tm.m.val % 5 = 0 →
              step s = .next { s with
                inp := { s.inp with sched := as }, rtc := { s.rtc with recPc := next } }) ∧
            (tm.m.val % 5 ≠ 0 → ∃ t tm' xs, step s = .next t ∧ tm'.h = tm.h ∧
              tm'.m.val = tm.m.val - tm.m.val % 5 ∧ tm'.s = tm.s ∧ t.rtc = keep (some tm') ∧
              t.out.faults = s.out.faults ∧
              s.RecOnly t
                ([.start, .write (s.cfg.rtcAddr (alarmRegs n).r1) (bcd tm'.s.val),
                  .write (s.cfg.rtcAddr (alarmRegs n).r2) (bcd tm'.m.val),
                  .write (s.cfg.rtcAddr (alarmRegs n).r3) (bcd tm'.h.val),
                  .read (s.cfg.maskPlace n).addr] ++ xs) ∧
              match s.maskAnswer
                [(s.cfg.rtcAddr (alarmRegs n).r1, bcd tm'.s.val),
                  (s.cfg.rtcAddr (alarmRegs n).r2, bcd tm'.m.val),
                  (s.cfg.rtcAddr (alarmRegs n).r3, bcd tm'.h.val)] (s.cfg.maskPlace n).addr with
              | none => xs = [.stop]
              | some b => ∃ b' : Byte, xs = [.write (s.cfg.maskPlace n).addr b', .stop] ∧
                ∀ j : Nat, b'.getLsbD j =
                  (decide (j = (s.cfg.maskPlace n).bit.val) || b.getLsbD j))

/-- The two steps of `B_COMMIT` (R136) and the step `S_COMMIT` (R138). -/
def Obligations.RecTaskCommits : Prop :=
  ∀ (s : State) (as : List Agent) (x y z : Time), s.inp.sched = .recTask :: as →
    (s.recPending = false → s.rtc.recPc = .bCommit → s.rtc.tmpTime = some x →
        s.rtc.tmpAl1 = some y → s.rtc.tmpAl2 = some z →
          step s = .next { s with
            inp := { s.inp with sched := as }
            rtc := { s.rtc with
              clockPend := { s.rtc.clockPend with recTask := some x }
              al1Pend := { s.rtc.al1Pend with recTask := some y }
              al2Pend := { s.rtc.al2Pend with recTask := some z } } }) ∧
      (s.rtc.recPc = .bCommit → s.rtc.clockPend.recTask = some x → s.rtc.al1Pend.recTask = some y →
        s.rtc.al2Pend.recTask = some z →
          step s = .next { s with
            inp := { s.inp with sched := as }
            rtc := { s.rtc with
              clockTime := x
              alarmTime1 := y
              alarmTime2 := z
              clockPend := { s.rtc.clockPend with recTask := none }
              al1Pend := { s.rtc.al1Pend with recTask := none }
              al2Pend := { s.rtc.al2Pend with recTask := none }
              online := true
              ready := true
              recPc := .sRead } }) ∧
      (s.rtc.recPc = .sCommit → s.rtc.clockPend.recTask = some x → s.rtc.al1Pend.recTask = none →
        s.rtc.al2Pend.recTask = none →
          step s = .next { s with
            inp := { s.inp with sched := as }
            rtc := { s.rtc with
              clockTime := x
              clockPend := { s.rtc.clockPend with recTask := none }
              recPc := .sEval } })

/-- The steady poll (R137): the chip's time and `online` set, or, on a failed read or on bad data, which is
recorded (R134), the cached time one second on and `online` cleared; phase 1 of the clock's write. -/
def Obligations.PollOrFallback : Prop :=
  ∀ (s : State) (as : List Agent), s.inp.sched = .recTask :: as → s.recPending = false →
    s.rtc.recPc = .sRead →
      ∃ t f new, step s = .next t ∧
        Params.ReadsAs s.cfg ⟨.seconds, .minutes, .hour⟩
          (s.readAnswer ⟨.seconds, .minutes, .hour⟩) f ∧
        s.RecOnly t
          [.start, .read (s.cfg.rtcAddr .seconds), .read (s.cfg.rtcAddr .minutes),
            .read (s.cfg.rtcAddr .hour), .stop] ∧
        s.RecGetterFaults t f ∧
        t.rtc =
          { s.rtc with
            online := t.rtc.online
            clockPend := { s.rtc.clockPend with recTask := some new }
            recPc := .sCommit } ∧
        ((∃ tm, f = .got tm ∧ new = tm ∧ t.rtc.online = true) ∨
          ((∀ tm, f ≠ .got tm) ∧ t.rtc.online = false ∧
            ∃ c, s.Sees .recTask .clock c ∧ tod new = (tod c + 1) % 86400))

/-- The alarm evaluation (R139, with the decided lead of 0 minutes): the shared edge latch follows the match,
and only its rising edge moves the alarm state, from Off to Sunrise. -/
def Obligations.AlarmEdgeLatch : Prop :=
  ∀ (s : State) (as : List Agent), s.inp.sched = .recTask :: as → s.recPending = false →
    s.rtc.recPc = .sEval → s.cfg.alarmLeadMin = 0 →
      ∃ t c a1 a2 hit n, step s = .next t ∧ s.Sees .recTask .clock c ∧ s.Sees .recTask .al1 a1 ∧
        s.Sees .recTask .al2 a2 ∧
        (hit = true ↔
          ((s.rtc.alarmMode = .alarm1 ∨ s.rtc.alarmMode = .both) ∧ c.h = a1.h ∧ c.m = a1.m) ∨
            ((s.rtc.alarmMode = .alarm2 ∨ s.rtc.alarmMode = .both) ∧ c.h = a2.h ∧ c.m = a2.m)) ∧
        t = { s with
          inp := { s.inp with sched := as, draws := s.inp.draws + n }
          rtc := { s.rtc with
            trigLatch := hit
            alarmState :=
              if hit = true ∧ s.rtc.trigLatch = false ∧ s.rtc.alarmState = .off then .sunrise
              else s.rtc.alarmState
            recPc := .sRead } }

/-- One bootstrap pass (R126 to R136, R201): where the oracle answers the four flag reads and the three time
reads with bytes that have values, eleven steps of `RecTask` commit the time and the normalised alarms, and
`ready` and `online` are set (R142). -/
def Obligations.BootstrapPassCommits : Prop :=
  ∀ (s : State) (as : List Agent) (f1 f2 f3 f4 b1 b2 b3 : Bytes3) (rest : List (Option Bytes3))
    (x y z : Time),
    s.inp.sched = List.replicate 11 Agent.recTask ++ as → s.inp.sim = none →
      s.inp.reads = [some f1, some f2, some f3, some f4, some b1, some b2, some b3] ++ rest →
      Params.ReadsAs s.cfg ⟨.seconds, .minutes, .hour⟩ (some b1) (.got x) →
      Params.ReadsAs s.cfg ⟨.alarm1Seconds, .alarm1Minutes, .alarm1Hours⟩ (some b2) (.got y) →
      Params.ReadsAs s.cfg ⟨.alarm2Seconds, .alarm2Minutes, .alarm2Hours⟩ (some b3) (.got z) →
      s.rtc.recPc = .bSqw → s.recPending = false →
        ∃ t, Sys2Proof.core.run 11 s = .next t ∧
          t.rtc =
            { s.rtc with
              recPc := .sRead
              tmpTime := some x
              tmpAl1 := some (norm5 y)
              tmpAl2 := some (norm5 z)
              clockTime := x
              alarmTime1 := norm5 y
              alarmTime2 := norm5 z
              clockPend := { s.rtc.clockPend with recTask := none }
              al1Pend := { s.rtc.al1Pend with recTask := none }
              al2Pend := { s.rtc.al2Pend with recTask := none }
              online := true
              ready := true } ∧
          t.disp = s.disp ∧ t.led = s.led ∧ t.cfg = s.cfg ∧ t.out.faults = s.out.faults

/-! ### The whole machine -/

/-- Every command completes: from any state it gives a next state (R170, R151, R102, R125). -/
def Obligations.EveryCommandCompletes : Prop :=
  ∀ (i : Instr) (s : State), ∃ t, exec i s = .next t

/-- The cells each agent may write (R177). -/
def Obligations.WritersOfEachCell : Prop :=
  ∀ (s t : State) (a : Agent), s.turn a = .next t →
    (a = .host → s.HostFrame t) ∧ (a = .muxIsr → s.MuxFrame t) ∧ (a = .recTask → s.RecFrame t) ∧
      (a = .ledTimer → s.LedFrame t)

/-- What no step undoes: the faults recorded, the refused bit and the ready event stand (R24, R32), the steady
phase is never left (R141), and no step changes the parameters (R6). -/
def Obligations.NothingUndone : Prop :=
  ∀ s t : State, step s = .next t →
    s.out.faults <+: t.out.faults ∧ (s.out.refused = true → t.out.refused = true) ∧
      (s.rtc.ready = true → t.rtc.ready = true) ∧
      (s.rtc.recPc.steady = true → t.rtc.recPc.steady = true) ∧ t.cfg = s.cfg

/-- The invariants hold in the state after every step (R94, R140, the ranges of R18 and R28 to R30, R39, R104;
the simulator's memory form is the model's, log 10). -/
def Obligations.StepKeepsInv : Prop :=
  ∀ s t : State, s.Inv → step s = .next t → t.Inv

/-- No state stops: every step gives a next state (R170, R184); and where the invariants hold, `RecTask` stands
before no read of an unwritten temporary (R140). -/
def Obligations.StepNeverStops : Prop :=
  ∀ s : State, (∃ t, step s = .next t) ∧
    (s.Inv →
      (s.rtc.recPc = .bFix1 → s.rtc.tmpAl1 ≠ none) ∧ (s.rtc.recPc = .bFix2 → s.rtc.tmpAl2 ≠ none) ∧
        (s.rtc.recPc = .bCommit →
          s.rtc.tmpTime ≠ none ∧ s.rtc.tmpAl1 ≠ none ∧ s.rtc.tmpAl2 ≠ none))

/-- The invariants hold right after reset, for every draw, every legal choice of the parameters and every
environment whose simulator memory is in canonical form (R188). -/
def Obligations.CleanResetMeetsInv : Prop :=
  State.reset.CleanReset ∧ ∀ s : State, s.CleanReset → s.SimInv → s.Inv

/-- The values after reset that R186 gives, cell by cell, and which agents then have an enabled step (R187). -/
def Obligations.ResetValues : Prop :=
  ∀ s : State, s.CleanReset →
    (∀ k, s.disp.grid.get k = none ∧ s.disp.gridPend.get k = none ∧ s.disp.digEn.get k = false) ∧
      s.disp.srData = false ∧ s.disp.srClk = false ∧ s.disp.srStrobe = false ∧
      s.disp.boostEn = false ∧ s.disp.heaterEn = false ∧ s.disp.dispEnabled = false ∧
      s.disp.brightCmp = s.cfg.brightCmpReset ∧ s.rtc.recPc = .bSqw ∧ s.rtc.tmpTime = none ∧
      s.rtc.tmpAl1 = none ∧ s.rtc.tmpAl2 = none ∧ s.rtc.clockTime = ⟨0, 0, 0⟩ ∧
      s.rtc.alarmTime1 = ⟨0, 0, 0⟩ ∧ s.rtc.alarmTime2 = ⟨0, 0, 0⟩ ∧
      s.rtc.clockPend = ⟨none, none⟩ ∧ s.rtc.al1Pend = ⟨none, none⟩ ∧
      s.rtc.al2Pend = ⟨none, none⟩ ∧ s.rtc.online = false ∧ s.rtc.ready = false ∧
      s.rtc.alarmMode = .both ∧ s.rtc.alarmState = .off ∧ s.rtc.trigLatch = false ∧
      (∀ c, s.led.chan.get c = ⟨0, 0, 0, false⟩) ∧ s.led.stlAl1 = false ∧ s.led.stlAl2 = false ∧
      s.led.flashCol = .dark ∧ s.led.flashLeft = 0 ∧ s.led.stripOn = s.cfg.stripOnReset ∧
      s.led.stripB = s.cfg.stripBReset ∧ s.led.stripCct = s.cfg.stripCctReset ∧
      s.out.faults = [] ∧ s.out.refused = false ∧ s.enabled .host = true ∧
      s.enabled .recTask = true ∧ s.enabled .ledTimer = true ∧ s.enabled .muxIsr = false
end

