-- ==== Sys2Proof/Laws/Memory.lean ====
section
/-! SUPPORT. The byte memory (log 10): every write keeps the canonical form, a read after a write at the same
address gives the value written, and a write leaves every other address alone. -/

namespace Sys2Proof.Machine

theorem Memory.wf_tail (c : Host.Cell) (m : Memory) (h : Memory.wf (c :: m) = true) : Memory.wf m = true := by
  simp only [Memory.wf, Bool.and_eq_true] at h
  exact h.2

theorem Memory.above_of_lt (a b : Nat) (m : Memory) (hab : a < b) (h : Memory.above b m = true) :
    Memory.above a m = true := by
  cases m with
  | nil => rfl
  | cons c m =>
    simp only [Memory.above, decide_eq_true_eq] at h ⊢
    omega

theorem Memory.read_of_above (a : Nat) (m : Memory) (h : Memory.wf m = true)
    (ha : Memory.above a m = true) : Memory.read m a = blankByte := by
  induction m with
  | nil => rfl
  | cons c m ih =>
    simp only [Memory.above, decide_eq_true_eq] at ha
    simp only [Memory.wf, Bool.and_eq_true] at h
    have hne : c.1 ≠ a := by omega
    simp only [Memory.read, hne, if_false]
    exact ih h.2 (Memory.above_of_lt a c.1 m ha h.1.2)

theorem Memory.above_write (b a : Nat) (x : Byte) (m : Memory) (hm : Memory.wf m = true)
    (hb : Memory.above b m = true) (hba : b < a) : Memory.above b (Memory.write m a x) = true := by
  cases m with
  | nil =>
    simp only [Memory.write]
    split
    · rfl
    · simpa [Memory.above] using hba
  | cons c m =>
    simp only [Memory.wf, Bool.and_eq_true] at hm
    have hc : b < c.1 := by simpa [Memory.above] using hb
    simp only [Memory.write]
    split
    · split
      · exact hb
      · simpa [Memory.above] using hba
    · split
      · split
        · exact Memory.above_of_lt b c.1 m hc hm.1.2
        · simpa [Memory.above] using hba
      · simpa [Memory.above] using hc

/-- A write keeps the canonical form. -/
theorem Memory.write_wf (m : Memory) (a : Nat) (x : Byte) (h : Memory.wf m = true) :
    Memory.wf (Memory.write m a x) = true := by
  induction m with
  | nil =>
    simp only [Memory.write]
    split
    · rfl
    · next hx => simp [Memory.wf, Memory.above, hx]
  | cons c m ih =>
    have h' := h
    simp only [Memory.wf, Bool.and_eq_true] at h
    simp only [Memory.write]
    split
    · next hlt =>
      split
      · exact h'
      · next hx => simp_all [Memory.wf, Memory.above]
    · split
      · next heq =>
        split
        · exact h.2
        · next hx =>
          subst heq
          simp [Memory.wf, hx, h.1.2, h.2]
      · next h1 h2 =>
        have hca : c.1 < a := by omega
        simp only [Memory.wf, Bool.and_eq_true]
        exact ⟨⟨h.1.1, Memory.above_write c.1 a x m h.2 h.1.2 hca⟩, ih h.2⟩

/-- A read after a write at the same address gives the value written. -/
theorem Memory.read_write_same (m : Memory) (a : Nat) (x : Byte) (h : Memory.wf m = true) :
    Memory.read (Memory.write m a x) a = x := by
  induction m with
  | nil =>
    simp only [Memory.write]
    split
    · next hx => rw [hx]; rfl
    · simp [Memory.read]
  | cons c m ih =>
    have h' := h
    simp only [Memory.wf, Bool.and_eq_true] at h
    simp only [Memory.write]
    split
    · next hlt =>
      split
      · next hx =>
        rw [hx]
        exact Memory.read_of_above a (c :: m) h' (by simpa [Memory.above] using hlt)
      · simp [Memory.read]
    · split
      · next heq =>
        split
        · next hx =>
          rw [hx, heq]
          exact Memory.read_of_above c.1 m h.2 h.1.2
        · simp [Memory.read]
      · next h1 h2 =>
        have hne : c.1 ≠ a := fun e => h2 e.symm
        simp only [Memory.read, hne, if_false]
        exact ih h.2

/-- A write leaves every other address alone. -/
theorem Memory.read_write_other (m : Memory) (a b : Nat) (x : Byte) (hab : b ≠ a) :
    Memory.read (Memory.write m a x) b = Memory.read m b := by
  induction m with
  | nil =>
    simp only [Memory.write]
    split
    · rfl
    · simp [Memory.read, Ne.symm hab]
  | cons c m ih =>
    simp only [Memory.write]
    split
    · split
      · rfl
      · simp [Memory.read, Ne.symm hab]
    · split
      · next heq =>
        subst heq
        split <;> simp [Memory.read, Ne.symm hab]
      · simp only [Memory.read]
        rw [ih]

/-- Stored bytes keep the canonical form. -/
theorem storeItems_wf (items : List (Byte × Byte)) (m : Memory) (h : Memory.wf m = true) :
    Memory.wf (storeItems m items) = true := by
  induction items generalizing m with
  | nil => exact h
  | cons it items ih => exact ih _ (Memory.write_wf m _ _ h)

end Sys2Proof.Machine
end

