-- ==== Sys2Proof/Laws/State.lean ====
section
/-! SUPPORT. One lemma for each unit of the state after each named update, so that no later proof unfolds a
record update. -/

namespace Sys2Proof.Machine

/-! ### `withInp` -/

@[simp] theorem State.withInp_cfg (s : State) (x : Inputs) : (s.withInp x).cfg = s.cfg := rfl
@[simp] theorem State.withInp_inp (s : State) (x : Inputs) : (s.withInp x).inp = x := rfl
@[simp] theorem State.withInp_disp (s : State) (x : Inputs) : (s.withInp x).disp = s.disp := rfl
@[simp] theorem State.withInp_rtc (s : State) (x : Inputs) : (s.withInp x).rtc = s.rtc := rfl
@[simp] theorem State.withInp_led (s : State) (x : Inputs) : (s.withInp x).led = s.led := rfl
@[simp] theorem State.withInp_out (s : State) (x : Inputs) : (s.withInp x).out = s.out := rfl

/-! ### `withDisp` -/

@[simp] theorem State.withDisp_cfg (s : State) (x : Display) : (s.withDisp x).cfg = s.cfg := rfl
@[simp] theorem State.withDisp_inp (s : State) (x : Display) : (s.withDisp x).inp = s.inp := rfl
@[simp] theorem State.withDisp_disp (s : State) (x : Display) : (s.withDisp x).disp = x := rfl
@[simp] theorem State.withDisp_rtc (s : State) (x : Display) : (s.withDisp x).rtc = s.rtc := rfl
@[simp] theorem State.withDisp_led (s : State) (x : Display) : (s.withDisp x).led = s.led := rfl
@[simp] theorem State.withDisp_out (s : State) (x : Display) : (s.withDisp x).out = s.out := rfl

/-! ### `withRtc` -/

@[simp] theorem State.withRtc_cfg (s : State) (x : RtcUnit) : (s.withRtc x).cfg = s.cfg := rfl
@[simp] theorem State.withRtc_inp (s : State) (x : RtcUnit) : (s.withRtc x).inp = s.inp := rfl
@[simp] theorem State.withRtc_disp (s : State) (x : RtcUnit) : (s.withRtc x).disp = s.disp := rfl
@[simp] theorem State.withRtc_rtc (s : State) (x : RtcUnit) : (s.withRtc x).rtc = x := rfl
@[simp] theorem State.withRtc_led (s : State) (x : RtcUnit) : (s.withRtc x).led = s.led := rfl
@[simp] theorem State.withRtc_out (s : State) (x : RtcUnit) : (s.withRtc x).out = s.out := rfl

/-! ### `withLed` -/

@[simp] theorem State.withLed_cfg (s : State) (x : LedUnit) : (s.withLed x).cfg = s.cfg := rfl
@[simp] theorem State.withLed_inp (s : State) (x : LedUnit) : (s.withLed x).inp = s.inp := rfl
@[simp] theorem State.withLed_disp (s : State) (x : LedUnit) : (s.withLed x).disp = s.disp := rfl
@[simp] theorem State.withLed_rtc (s : State) (x : LedUnit) : (s.withLed x).rtc = s.rtc := rfl
@[simp] theorem State.withLed_led (s : State) (x : LedUnit) : (s.withLed x).led = x := rfl
@[simp] theorem State.withLed_out (s : State) (x : LedUnit) : (s.withLed x).out = s.out := rfl

/-! ### `withOut` -/

@[simp] theorem State.withOut_cfg (s : State) (x : Record) : (s.withOut x).cfg = s.cfg := rfl
@[simp] theorem State.withOut_inp (s : State) (x : Record) : (s.withOut x).inp = s.inp := rfl
@[simp] theorem State.withOut_disp (s : State) (x : Record) : (s.withOut x).disp = s.disp := rfl
@[simp] theorem State.withOut_rtc (s : State) (x : Record) : (s.withOut x).rtc = s.rtc := rfl
@[simp] theorem State.withOut_led (s : State) (x : Record) : (s.withOut x).led = s.led := rfl
@[simp] theorem State.withOut_out (s : State) (x : Record) : (s.withOut x).out = x := rfl

/-! ### `answer` -/

@[simp] theorem State.answer_cfg (s : State) (v : Value) : (s.answer v).cfg = s.cfg := rfl
@[simp] theorem State.answer_inp (s : State) (v : Value) : (s.answer v).inp = s.inp := rfl
@[simp] theorem State.answer_disp (s : State) (v : Value) : (s.answer v).disp = s.disp := rfl
@[simp] theorem State.answer_rtc (s : State) (v : Value) : (s.answer v).rtc = s.rtc := rfl
@[simp] theorem State.answer_led (s : State) (v : Value) : (s.answer v).led = s.led := rfl
@[simp] theorem State.answer_out (s : State) (v : Value) :
    (s.answer v).out = { s.out with outcome := .result v } := rfl

/-! ### `takeFault` -/

@[simp] theorem State.takeFault_cfg (s : State) (f : FaultRecord) : (s.takeFault f).cfg = s.cfg := rfl
@[simp] theorem State.takeFault_inp (s : State) (f : FaultRecord) : (s.takeFault f).inp = s.inp := rfl
@[simp] theorem State.takeFault_disp (s : State) (f : FaultRecord) : (s.takeFault f).disp = s.disp := rfl
@[simp] theorem State.takeFault_rtc (s : State) (f : FaultRecord) : (s.takeFault f).rtc = s.rtc := rfl
@[simp] theorem State.takeFault_led (s : State) (f : FaultRecord) : (s.takeFault f).led = s.led := rfl
@[simp] theorem State.takeFault_out (s : State) (f : FaultRecord) :
    (s.takeFault f).out = { s.out with faults := s.out.faults ++ [f] } := rfl

/-! ### `hostFault` -/

@[simp] theorem State.hostFault_cfg (s : State) (r : RtcReg) (b : Byte) :
    (s.hostFault r b).cfg = s.cfg := rfl
@[simp] theorem State.hostFault_inp (s : State) (r : RtcReg) (b : Byte) :
    (s.hostFault r b).inp = s.inp := rfl
@[simp] theorem State.hostFault_disp (s : State) (r : RtcReg) (b : Byte) :
    (s.hostFault r b).disp = s.disp := rfl
@[simp] theorem State.hostFault_rtc (s : State) (r : RtcReg) (b : Byte) :
    (s.hostFault r b).rtc = s.rtc := rfl
@[simp] theorem State.hostFault_led (s : State) (r : RtcReg) (b : Byte) :
    (s.hostFault r b).led = s.led := rfl
@[simp] theorem State.hostFault_out (s : State) (r : RtcReg) (b : Byte) :
    (s.hostFault r b).out = { s.out with faults := s.out.faults ++ [⟨.host, r, b⟩], outcome := .fault ⟨.host, r, b⟩ } := rfl

/-! ### `refuse` -/

@[simp] theorem State.refuse_cfg (s : State) (q : RefusedWord) : (s.refuse q).cfg = s.cfg := rfl
@[simp] theorem State.refuse_inp (s : State) (q : RefusedWord) : (s.refuse q).inp = s.inp := rfl
@[simp] theorem State.refuse_disp (s : State) (q : RefusedWord) : (s.refuse q).disp = s.disp := rfl
@[simp] theorem State.refuse_rtc (s : State) (q : RefusedWord) : (s.refuse q).rtc = s.rtc := rfl
@[simp] theorem State.refuse_led (s : State) (q : RefusedWord) : (s.refuse q).led = s.led := rfl
@[simp] theorem State.refuse_out (s : State) (q : RefusedWord) :
    (s.refuse q).out = { s.out with refused := true, outcome := .refuse q } := rfl

/-! ### `drawn` -/

@[simp] theorem State.drawn_cfg (s : State) (k : Nat) : (s.drawn k).cfg = s.cfg := rfl
@[simp] theorem State.drawn_inp (s : State) (k : Nat) :
    (s.drawn k).inp = { s.inp with draws := s.inp.draws + k } := rfl
@[simp] theorem State.drawn_disp (s : State) (k : Nat) : (s.drawn k).disp = s.disp := rfl
@[simp] theorem State.drawn_rtc (s : State) (k : Nat) : (s.drawn k).rtc = s.rtc := rfl
@[simp] theorem State.drawn_led (s : State) (k : Nat) : (s.drawn k).led = s.led := rfl
@[simp] theorem State.drawn_out (s : State) (k : Nat) : (s.drawn k).out = s.out := rfl

/-! ### `answerFree` -/

@[simp] theorem State.answerFree_cfg (s : State) : (s.answerFree).cfg = s.cfg := rfl
@[simp] theorem State.answerFree_inp (s : State) :
    (s.answerFree).inp = { s.inp with draws := s.inp.draws + 1 } := rfl
@[simp] theorem State.answerFree_disp (s : State) : (s.answerFree).disp = s.disp := rfl
@[simp] theorem State.answerFree_rtc (s : State) : (s.answerFree).rtc = s.rtc := rfl
@[simp] theorem State.answerFree_led (s : State) : (s.answerFree).led = s.led := rfl
@[simp] theorem State.answerFree_out (s : State) :
    (s.answerFree).out = { s.out with outcome := .result (.bool (Config.freeResult s.inp.draws)) } := rfl

/-! ### `trace` -/

@[simp] theorem State.trace_cfg (s : State) (es : List PinEvent) : (s.trace es).cfg = s.cfg := rfl
@[simp] theorem State.trace_inp (s : State) (es : List PinEvent) : (s.trace es).inp = s.inp := rfl
@[simp] theorem State.trace_disp (s : State) (es : List PinEvent) : (s.trace es).disp = s.disp := rfl
@[simp] theorem State.trace_rtc (s : State) (es : List PinEvent) : (s.trace es).rtc = s.rtc := rfl
@[simp] theorem State.trace_led (s : State) (es : List PinEvent) : (s.trace es).led = s.led := rfl
@[simp] theorem State.trace_out (s : State) (es : List PinEvent) :
    (s.trace es).out = { s.out with pins := s.out.pins ++ es } := rfl

/-! ### `drive` -/

@[simp] theorem State.drive_cfg (s : State) (xs : List BusItem) : (s.drive xs).cfg = s.cfg := rfl
@[simp] theorem State.drive_inp (s : State) (xs : List BusItem) : (s.drive xs).inp = s.inp := rfl
@[simp] theorem State.drive_disp (s : State) (xs : List BusItem) : (s.drive xs).disp = s.disp := rfl
@[simp] theorem State.drive_rtc (s : State) (xs : List BusItem) : (s.drive xs).rtc = s.rtc := rfl
@[simp] theorem State.drive_led (s : State) (xs : List BusItem) : (s.drive xs).led = s.led := rfl
@[simp] theorem State.drive_out (s : State) (xs : List BusItem) :
    (s.drive xs).out = { s.out with bus := s.out.bus ++ xs } := rfl

/-! ### `busStop` -/

@[simp] theorem State.busStop_cfg (s : State) : (s.busStop).cfg = s.cfg := rfl
@[simp] theorem State.busStop_inp (s : State) : (s.busStop).inp = s.inp := rfl
@[simp] theorem State.busStop_disp (s : State) : (s.busStop).disp = s.disp := rfl
@[simp] theorem State.busStop_rtc (s : State) : (s.busStop).rtc = s.rtc := rfl
@[simp] theorem State.busStop_led (s : State) : (s.busStop).led = s.led := rfl
@[simp] theorem State.busStop_out (s : State) :
    (s.busStop).out = { s.out with bus := s.out.bus ++ [.stop] } := rfl

/-! ### `pendGrid` -/

@[simp] theorem State.pendGrid_cfg (s : State) (k : Fin 6) (e : GridEntry) :
    (s.pendGrid k e).cfg = s.cfg := rfl
@[simp] theorem State.pendGrid_inp (s : State) (k : Fin 6) (e : GridEntry) :
    (s.pendGrid k e).inp = s.inp := rfl
@[simp] theorem State.pendGrid_disp (s : State) (k : Fin 6) (e : GridEntry) :
    (s.pendGrid k e).disp = { s.disp with gridPend := s.disp.gridPend.set k (some e) } := rfl
@[simp] theorem State.pendGrid_rtc (s : State) (k : Fin 6) (e : GridEntry) :
    (s.pendGrid k e).rtc = s.rtc := rfl
@[simp] theorem State.pendGrid_led (s : State) (k : Fin 6) (e : GridEntry) :
    (s.pendGrid k e).led = s.led := rfl
@[simp] theorem State.pendGrid_out (s : State) (k : Fin 6) (e : GridEntry) :
    (s.pendGrid k e).out = s.out := rfl

/-! ### `commitHost` -/

@[simp] theorem State.commitHost_cfg (s : State) : (s.commitHost).cfg = s.cfg := rfl
@[simp] theorem State.commitHost_inp (s : State) : (s.commitHost).inp = s.inp := rfl
@[simp] theorem State.commitHost_disp (s : State) :
    (s.commitHost).disp = { s.disp with grid := Six.zip commitEntry s.disp.gridPend s.disp.grid, gridPend := Six.fill none } := rfl
@[simp] theorem State.commitHost_rtc (s : State) : (s.commitHost).rtc = s.rtc.commit .host := rfl
@[simp] theorem State.commitHost_led (s : State) : (s.commitHost).led = s.led := rfl
@[simp] theorem State.commitHost_out (s : State) : (s.commitHost).out = s.out := rfl

/-! ### `commitRec` -/

@[simp] theorem State.commitRec_cfg (s : State) : (s.commitRec).cfg = s.cfg := rfl
@[simp] theorem State.commitRec_inp (s : State) : (s.commitRec).inp = s.inp := rfl
@[simp] theorem State.commitRec_disp (s : State) : (s.commitRec).disp = s.disp := rfl
@[simp] theorem State.commitRec_rtc (s : State) : (s.commitRec).rtc = s.rtc.commit .recTask := rfl
@[simp] theorem State.commitRec_led (s : State) : (s.commitRec).led = s.led := rfl
@[simp] theorem State.commitRec_out (s : State) : (s.commitRec).out = s.out := rfl

/-! ### `goTo` -/

@[simp] theorem State.goTo_cfg (s : State) (pc : RecPc) : (s.goTo pc).cfg = s.cfg := rfl
@[simp] theorem State.goTo_inp (s : State) (pc : RecPc) : (s.goTo pc).inp = s.inp := rfl
@[simp] theorem State.goTo_disp (s : State) (pc : RecPc) : (s.goTo pc).disp = s.disp := rfl
@[simp] theorem State.goTo_rtc (s : State) (pc : RecPc) :
    (s.goTo pc).rtc = { s.rtc with recPc := pc } := rfl
@[simp] theorem State.goTo_led (s : State) (pc : RecPc) : (s.goTo pc).led = s.led := rfl
@[simp] theorem State.goTo_out (s : State) (pc : RecPc) : (s.goTo pc).out = s.out := rfl

/-! ### `bootFail` -/

@[simp] theorem State.bootFail_cfg (s : State) : (s.bootFail).cfg = s.cfg := rfl
@[simp] theorem State.bootFail_inp (s : State) : (s.bootFail).inp = s.inp := rfl
@[simp] theorem State.bootFail_disp (s : State) : (s.bootFail).disp = s.disp := rfl
@[simp] theorem State.bootFail_rtc (s : State) :
    (s.bootFail).rtc = { s.rtc with online := false, recPc := .bSqw } := rfl
@[simp] theorem State.bootFail_led (s : State) : (s.bootFail).led = s.led := rfl
@[simp] theorem State.bootFail_out (s : State) : (s.bootFail).out = s.out := rfl

/-! ### `setChannel` -/

@[simp] theorem State.setChannel_cfg (s : State) (c : Fin 6) (x : Channel) :
    (s.setChannel c x).cfg = s.cfg := rfl
@[simp] theorem State.setChannel_inp (s : State) (c : Fin 6) (x : Channel) :
    (s.setChannel c x).inp = s.inp := rfl
@[simp] theorem State.setChannel_disp (s : State) (c : Fin 6) (x : Channel) :
    (s.setChannel c x).disp = s.disp := rfl
@[simp] theorem State.setChannel_rtc (s : State) (c : Fin 6) (x : Channel) :
    (s.setChannel c x).rtc = s.rtc := rfl
@[simp] theorem State.setChannel_led (s : State) (c : Fin 6) (x : Channel) :
    (s.setChannel c x).led = { s.led with chan := s.led.chan.set c x } := rfl
@[simp] theorem State.setChannel_out (s : State) (c : Fin 6) (x : Channel) :
    (s.setChannel c x).out = s.out := rfl

/-! ### `pendCache` -/

@[simp] theorem State.pendCache_cfg (s : State) (a : Agent) (c : CacheSel) (t : Time) :
    (s.pendCache a c t).cfg = s.cfg := by
  cases c <;> rfl
@[simp] theorem State.pendCache_inp (s : State) (a : Agent) (c : CacheSel) (t : Time) :
    (s.pendCache a c t).inp = s.inp := by
  cases c <;> rfl
@[simp] theorem State.pendCache_disp (s : State) (a : Agent) (c : CacheSel) (t : Time) :
    (s.pendCache a c t).disp = s.disp := by
  cases c <;> rfl
@[simp] theorem State.pendCache_led (s : State) (a : Agent) (c : CacheSel) (t : Time) :
    (s.pendCache a c t).led = s.led := by
  cases c <;> rfl
@[simp] theorem State.pendCache_out (s : State) (a : Agent) (c : CacheSel) (t : Time) :
    (s.pendCache a c t).out = s.out := by
  cases c <;> rfl

end Sys2Proof.Machine
end

