-- ==== Sys2Proof/Laws/Bus.lean ====
section
/-! SUPPORT. One specification for each bus primitive and for the alarm setter: the answer, the traffic
recorded, and that nothing else of the state changes but the oracle's inputs. -/

namespace Sys2Proof.Machine

/-- Only the oracle's inputs and the bus record differ; the traffic `xs` was recorded. -/
structure State.BusOnly (s t : State) (xs : List BusItem) : Prop where
  cells : s.SameCells t
  out : t.out = { s.out with bus := s.out.bus ++ xs }
  sim : s.SimInv → t.SimInv

theorem State.BusOnly.trans {s t u : State} {xs ys : List BusItem} (h : s.BusOnly t xs)
    (k : t.BusOnly u ys) : s.BusOnly u (xs ++ ys) := by
  obtain ⟨⟨a1, a2, a3, a4, a5, a6⟩, ao, as⟩ := h
  obtain ⟨⟨b1, b2, b3, b4, b5, b6⟩, bo, bs⟩ := k
  refine ⟨⟨b1.trans a1, b2.trans a2, b3.trans a3, b4.trans a4, b5.trans a5, b6.trans a6⟩, ?_,
    fun hs => bs (as hs)⟩
  rw [bo, ao]
  simp [List.append_assoc]

theorem State.drive_busOnly (s : State) (xs : List BusItem) : s.BusOnly (s.drive xs) xs :=
  ⟨⟨rfl, rfl, rfl, rfl, rfl, rfl⟩, rfl, fun h => h⟩

theorem State.busStart_busOnly (s : State) : s.BusOnly s.busStart.2 [.start] := by
  unfold State.busStart
  split
  · exact s.drive_busOnly _
  · next c hc =>
    split
    · exact s.drive_busOnly _
    · refine ⟨⟨rfl, rfl, rfl, rfl, rfl, rfl⟩, rfl, ?_⟩
      intro h d hd
      have hr : d.simReg = c.simReg := by
        have := Option.some.inj hd
        rw [← this]
      rw [hr]
      exact h c hc

theorem State.busStop_busOnly (s : State) : s.BusOnly s.busStop [.stop] := s.drive_busOnly _

theorem State.askRead_busOnly (s : State) : s.BusOnly s.askRead.2 [] := by
  unfold State.askRead
  split <;> exact ⟨⟨rfl, rfl, rfl, rfl, rfl, rfl⟩, by simp, fun h => h⟩

theorem State.askAck_busOnly (s : State) : s.BusOnly s.askAck.2 [] := by
  unfold State.askAck
  split <;> exact ⟨⟨rfl, rfl, rfl, rfl, rfl, rfl⟩, by simp, fun h => h⟩

theorem State.simStore_busOnly (s : State) (items : List (Byte × Byte)) :
    s.BusOnly (s.simStore items) [] := by
  unfold State.simStore
  split
  · next c hc =>
    refine ⟨⟨rfl, rfl, rfl, rfl, rfl, rfl⟩, by simp, ?_⟩
    intro h d hd
    have : d = { c with simReg := storeItems c.simReg items } := by simpa using hd.symm
    rw [this]
    exact storeItems_wf items _ (h c hc)
  · exact ⟨⟨rfl, rfl, rfl, rfl, rfl, rfl⟩, by simp, fun h => h⟩

theorem State.readOne_busOnly (s : State) (l : Link) (a : Byte) :
    s.BusOnly (s.readOne l a).2 [.read a] := by
  cases l
  · exact (s.drive_busOnly [.read a]).trans (State.askRead_busOnly _)
  · exact s.drive_busOnly _
  · exact s.drive_busOnly _

theorem State.readThree_busOnly (s : State) (l : Link) (a b c : Byte) :
    s.BusOnly (s.readThree l a b c).2 [.read a, .read b, .read c] := by
  cases l
  · exact (s.drive_busOnly _).trans (State.askRead_busOnly _)
  · exact s.drive_busOnly _
  · exact s.drive_busOnly _

theorem State.writeItems_busOnly (s : State) (l : Link) (items : List (Byte × Byte)) :
    s.BusOnly (s.writeItems l items).2 (items.map fun it => .write it.1 it.2) := by
  cases l
  · have h := (s.drive_busOnly _).trans
      (State.askAck_busOnly (s.drive (items.map fun it => .write it.1 it.2)))
    rwa [List.append_nil] at h
  · have h := (s.drive_busOnly _).trans
      (State.simStore_busOnly (s.drive (items.map fun it => .write it.1 it.2)) items)
    rwa [List.append_nil] at h
  · exact s.drive_busOnly _

theorem State.probeChip_busOnly (s : State) (l : Link) : s.BusOnly (s.probeChip l).2 [.probe] := by
  cases l
  · exact (s.drive_busOnly _).trans (State.askAck_busOnly _)
  · exact s.drive_busOnly _
  · exact s.drive_busOnly _

theorem State.rmwBit_busOnly (s : State) (l : Link) (a : Byte) (i : Fin 8) (v : Bool) :
    s.BusOnly (s.rmwBit l a i v).2 (rmwItems a i v (s.readOne l a).1) := by
  unfold State.rmwBit
  have h := s.readOne_busOnly l a
  cases hr : (s.readOne l a).1 with
  | none => simpa [hr, rmwItems] using h
  | some b =>
    have h2 := h.trans ((s.readOne l a).2.writeItems_busOnly l [(a, setBit b i v)])
    simpa [hr, rmwItems] using h2

theorem State.rmwBit_fst (s : State) (l : Link) (a : Byte) (i : Fin 8) (v : Bool) :
    (s.rmwBit l a i v).1 = (s.readOne l a).1.isSome := by
  unfold State.rmwBit
  cases hr : (s.readOne l a).1 <;> simp [hr]

/-- A transaction whose body drives `xs` drives `xs` between begin and end (R104). -/
theorem State.transaction_busOnly {α : Type} (s : State) (body : Link → State → α × State)
    (xs : List BusItem)
    (h : s.busStart.2.BusOnly (body s.busStart.1 s.busStart.2).2 xs) :
    s.BusOnly (s.transaction body).2 (bracketed xs) := by
  have h2 := (s.busStart_busOnly.trans h).trans (State.busStop_busOnly _)
  simpa [bracketed, State.transaction] using h2

/-- Who answers in a transaction begun in `s`. -/
theorem State.busStart_cases (s : State) :
    (s.inp.sim = none ∧ s.busStart.1 = .oracle) ∨
      (∃ c, s.inp.sim = some c ∧ c.script.headD true = true ∧ s.busStart.1 = .simOk) ∨
      ∃ c, s.inp.sim = some c ∧ c.script.headD true = false ∧ s.busStart.1 = .simFail := by
  unfold State.busStart
  cases h : s.inp.sim with
  | none => exact .inl ⟨rfl, rfl⟩
  | some c =>
    cases hs : c.script with
    | nil => exact .inr (.inl ⟨c, rfl, by simp [hs], by simp [hs]⟩)
    | cons ok rest =>
      cases ok
      · exact .inr (.inr ⟨c, rfl, by simp [hs], by simp [hs]⟩)
      · exact .inr (.inl ⟨c, rfl, by simp [hs], by simp [hs]⟩)

@[simp] theorem State.busStart_cfg (s : State) : s.busStart.2.cfg = s.cfg := s.busStart_busOnly.cells.1

theorem State.busStart_reads (s : State) : s.busStart.2.inp.reads = s.inp.reads := by
  unfold State.busStart
  split
  · rfl
  · split <;> rfl

theorem State.busStart_acks (s : State) : s.busStart.2.inp.acks = s.inp.acks := by
  unfold State.busStart
  split
  · rfl
  · split <;> rfl

theorem State.busStart_draws (s : State) : s.busStart.2.inp.draws = s.inp.draws := by
  unfold State.busStart
  split
  · rfl
  · split <;> rfl

theorem State.busStart_simByte (s : State) (a : Byte) : s.busStart.2.simByte a = s.simByte a := by
  unfold State.busStart
  split
  · rfl
  · next c h =>
    split
    · rfl
    · simp [State.simByte, h]

@[simp] theorem State.drive_simByte (s : State) (xs : List BusItem) (a : Byte) :
    (s.drive xs).simByte a = s.simByte a := rfl

theorem State.askRead_fst (s : State) :
    s.askRead.1 = s.inp.reads.headD (Config.freeRead s.inp.draws) := by
  unfold State.askRead
  split <;> simp_all

theorem State.askAck_fst (s : State) :
    s.askAck.1 = s.inp.acks.headD (Config.freeAck s.inp.draws) := by
  unfold State.askAck
  split <;> simp_all

/-- What the first read of one byte in a transaction answers. -/
theorem State.readOne_start (s : State) (a : Byte) :
    (s.busStart.2.readOne s.busStart.1 a).1 = s.byteAnswer a := by
  unfold State.byteAnswer
  rcases s.busStart_cases with ⟨h, hl⟩ | ⟨c, h, hb, hl⟩ | ⟨c, h, hb, hl⟩
  · simp only [h, hl, State.readOne, State.askRead_fst, State.drive_inp, State.busStart_reads,
      State.busStart_draws]
  · simp only [h, hl, hb, State.readOne, State.drive_simByte, State.busStart_simByte, if_true]
    simp only [State.simByte, h]
  · simp only [h, hl, hb, State.readOne]
    rfl

theorem State.busRead1_spec (s : State) (r : RtcReg) :
    (s.busRead1 r).1 = s.byteAnswer (s.cfg.rtcAddr r) ∧
      s.BusOnly (s.busRead1 r).2 (bracketed [.read (s.cfg.rtcAddr r)]) := by
  constructor
  · simp only [State.busRead1, State.transaction, State.busStart_cfg, State.readOne_start]
  · refine s.transaction_busOnly _ _ ?_
    simpa using s.busStart.2.readOne_busOnly s.busStart.1 (s.cfg.rtcAddr r)

theorem State.busRead3_spec (s : State) (rs : Regs3) :
    (s.busRead3 rs).1 = s.readAnswer rs ∧
      s.BusOnly (s.busRead3 rs).2 (bracketed (readTraffic s.cfg rs)) := by
  constructor
  · simp only [State.busRead3, State.transaction, State.busStart_cfg]
    unfold State.readAnswer
    rcases s.busStart_cases with ⟨h, hl⟩ | ⟨c, h, hb, hl⟩ | ⟨c, h, hb, hl⟩
    · simp only [h, hl, State.readThree, State.askRead_fst, State.drive_inp, State.busStart_reads,
        State.busStart_draws]
    · simp only [h, hl, hb, State.readThree, State.drive_simByte, State.busStart_simByte, if_true]
      simp only [State.simByte, h]
    · simp only [h, hl, hb, State.readThree]
      rfl
  · refine s.transaction_busOnly _ _ ?_
    simpa [readTraffic] using
      s.busStart.2.readThree_busOnly s.busStart.1 (s.cfg.rtcAddr rs.r1) (s.cfg.rtcAddr rs.r2)
        (s.cfg.rtcAddr rs.r3)

theorem State.writeItems_start (s : State) (items : List (Byte × Byte)) :
    (s.busStart.2.writeItems s.busStart.1 items).1 = s.ackAnswer := by
  unfold State.ackAnswer
  rcases s.busStart_cases with ⟨h, hl⟩ | ⟨c, h, hb, hl⟩ | ⟨c, h, hb, hl⟩
  · simp only [h, hl, State.writeItems, State.askAck_fst, State.drive_inp, State.busStart_acks,
      State.busStart_draws]
  · simp only [h, hl, hb, State.writeItems]
  · simp only [h, hl, hb, State.writeItems]

theorem writeTraffic_eq (p : Params) (items : List (RtcReg × Byte)) :
    (Params.atAddrs p items).map (fun it => BusItem.write it.1 it.2) = writeTraffic p items := by
  simp [Params.atAddrs, writeTraffic]

theorem State.busWrite_spec (s : State) (items : List (RtcReg × Byte)) :
    (s.busWrite items).1 = s.ackAnswer ∧
      s.BusOnly (s.busWrite items).2 (bracketed (writeTraffic s.cfg items)) := by
  constructor
  · simp only [State.busWrite, State.transaction, State.busStart_cfg, State.writeItems_start]
  · refine s.transaction_busOnly _ _ ?_
    have h := s.busStart.2.writeItems_busOnly s.busStart.1 (Params.atAddrs s.cfg items)
    rw [writeTraffic_eq] at h
    simpa using h

theorem State.busRmw_spec (s : State) (a : Byte) (i : Fin 8) (v : Bool) :
    (s.busRmw a i v).1 = (s.byteAnswer a).isSome ∧
      s.BusOnly (s.busRmw a i v).2 (bracketed (rmwItems a i v (s.byteAnswer a))) := by
  constructor
  · simp only [State.busRmw, State.transaction, State.rmwBit_fst, State.readOne_start]
  · refine s.transaction_busOnly _ _ ?_
    have h := s.busStart.2.rmwBit_busOnly s.busStart.1 a i v
    rwa [State.readOne_start] at h

theorem State.busProbe_spec (s : State) :
    s.busProbe.1 = s.ackAnswer ∧ s.BusOnly s.busProbe.2 (bracketed [.probe]) := by
  constructor
  · simp only [State.busProbe, State.transaction]
    unfold State.ackAnswer
    rcases s.busStart_cases with ⟨h, hl⟩ | ⟨c, h, hb, hl⟩ | ⟨c, h, hb, hl⟩
    · simp only [h, hl, State.probeChip, State.askAck_fst, State.drive_inp, State.busStart_acks,
        State.busStart_draws]
    · simp only [h, hl, hb, State.probeChip]
    · simp only [h, hl, hb, State.probeChip]
  · exact s.transaction_busOnly _ _ (s.busStart.2.probeChip_busOnly s.busStart.1)

/-- The read of the mask byte, after the write of the time bytes in the same transaction. -/
theorem State.readOne_afterWrite (s : State) (items : List (Byte × Byte)) (a : Byte) :
    ((s.busStart.2.writeItems s.busStart.1 items).2.readOne s.busStart.1 a).1 =
      s.maskAnswer items a := by
  unfold State.maskAnswer
  rcases s.busStart_cases with ⟨h, hl⟩ | ⟨c, h, hb, hl⟩ | ⟨c, h, hb, hl⟩
  · simp only [h, hl, State.readOne, State.askRead_fst, State.writeItems]
    unfold State.askAck
    simp only [State.drive_inp, State.busStart_acks]
    cases hk : s.inp.acks <;> simp [State.busStart_reads, State.busStart_draws]
  · obtain ⟨d, hd, hreg⟩ : ∃ d, s.busStart.2.inp.sim = some d ∧ d.simReg = c.simReg := by
      unfold State.busStart
      simp only [h]
      cases c.script <;> simp [h]
    simp only [h, hl, hb, State.readOne, State.writeItems, State.simByte, State.simStore,
      State.drive_inp, hd, State.withInp_inp, hreg, if_true]
  · simp only [h, hl, hb, State.readOne, State.writeItems]
    rfl

theorem State.setAlarm_spec (s : State) (n : AlarmNo) (t : Time) :
    (s.setAlarm n t).1 =
        (s.ackAnswer &&
          (s.maskAnswer (Params.atAddrs s.cfg (alarmItems s.cfg n t)) (s.cfg.maskPlace n).addr).isSome) ∧
      s.BusOnly (s.setAlarm n t).2
        (bracketed
          (writeTraffic s.cfg (alarmItems s.cfg n t) ++
            rmwItems (s.cfg.maskPlace n).addr (s.cfg.maskPlace n).bit true
              (s.maskAnswer (Params.atAddrs s.cfg (alarmItems s.cfg n t)) (s.cfg.maskPlace n).addr))) := by
  constructor
  · simp only [State.setAlarm, State.transaction, State.busStart_cfg, State.writeItems_start,
      State.rmwBit_fst]
    congr 1
    rw [State.readOne_afterWrite]
  · refine s.transaction_busOnly _ _ ?_
    have h1 := s.busStart.2.writeItems_busOnly s.busStart.1
      (Params.atAddrs s.cfg (alarmItems s.cfg n t))
    have hc := h1.cells.1
    rw [State.busStart_cfg] at hc
    have h2 := (s.busStart.2.writeItems s.busStart.1
      (Params.atAddrs s.cfg (alarmItems s.cfg n t))).2.rmwBit_busOnly s.busStart.1
        (s.cfg.maskPlace n).addr (s.cfg.maskPlace n).bit true
    rw [State.readOne_afterWrite] at h2
    rw [writeTraffic_eq] at h1
    simpa [hc] using h1.trans h2

theorem State.setFlag_spec (s : State) (f : RtcFlag) (on : Bool) :
    (s.setFlag f on).1 = (s.byteAnswer (s.cfg.rtcAddr (s.cfg.flagPlace f).reg)).isSome ∧
      s.BusOnly (s.setFlag f on).2
        (bracketed
          (rmwItems (s.cfg.rtcAddr (s.cfg.flagPlace f).reg) (s.cfg.flagPlace f).bit
            (FlagPlace.value (s.cfg.flagPlace f) on)
            (s.byteAnswer (s.cfg.rtcAddr (s.cfg.flagPlace f).reg)))) :=
  s.busRmw_spec _ _ _

theorem State.getTime_spec (s : State) :
    s.getTime.1 = s.cfg.decodeTime timeRegs (s.readAnswer timeRegs) ∧
      s.BusOnly s.getTime.2 (bracketed (readTraffic s.cfg timeRegs)) := by
  have h := s.busRead3_spec timeRegs
  exact ⟨by simp only [State.getTime, h.1], h.2⟩

theorem State.getDate_spec (s : State) :
    s.getDate.1 = s.cfg.decodeDate dateRegs (s.readAnswer dateRegs) ∧
      s.BusOnly s.getDate.2 (bracketed (readTraffic s.cfg dateRegs)) := by
  have h := s.busRead3_spec dateRegs
  exact ⟨by simp only [State.getDate, h.1], h.2⟩

theorem State.getAlarm_spec (s : State) (n : AlarmNo) :
    (s.getAlarm n).1 = s.cfg.decodeTime (alarmRegs n) (s.readAnswer (alarmRegs n)) ∧
      s.BusOnly (s.getAlarm n).2 (bracketed (readTraffic s.cfg (alarmRegs n))) := by
  have h := s.busRead3_spec (alarmRegs n)
  exact ⟨by simp only [State.getAlarm, h.1], h.2⟩

end Sys2Proof.Machine
end

