-- ==== Sys2Proof/Laws/Six.lean ====
section
/-! SUPPORT. The laws of `Six`: reading back what was set, filled or zipped. -/

namespace Sys2Proof

@[simp] theorem Six.get_set_same {α : Type} (v : Six α) (k : Fin 6) (x : α) : (v.set k x).get k = x := by
  fin_cases k <;> rfl

theorem Six.get_set_other {α : Type} (v : Six α) (k j : Fin 6) (x : α) (h : j ≠ k) :
    (v.set k x).get j = v.get j := by
  fin_cases k <;> fin_cases j <;> first | rfl | exact absurd rfl h

theorem Six.get_set {α : Type} (v : Six α) (k j : Fin 6) (x : α) :
    (v.set k x).get j = if j = k then x else v.get j := by
  split
  · next h => rw [h, Six.get_set_same]
  · next h => exact Six.get_set_other v k j x h

@[simp] theorem Six.get_fill {α : Type} (x : α) (k : Fin 6) : (Six.fill x).get k = x := by
  fin_cases k <;> rfl

@[simp] theorem Six.get_zip {α β γ : Type} (f : α → β → γ) (v : Six α) (w : Six β) (k : Fin 6) :
    (Six.zip f v w).get k = f (v.get k) (w.get k) := by
  fin_cases k <;> rfl

@[ext] theorem Six.ext_get {α : Type} (v w : Six α) (h : ∀ k, v.get k = w.get k) : v = w := by
  cases v; cases w
  have h0 := h 0
  have h1 := h 1
  have h2 := h 2
  have h3 := h 3
  have h4 := h 4
  have h5 := h 5
  simp only [Six.get] at h0 h1 h2 h3 h4 h5
  simp_all

end Sys2Proof
end

