-- ==== Sys2Proof/Laws/TwoPhase.lean ====
section
/-! SUPPORT. Two-phase writes and the reads that can see them (R37 to R40): what a read changes, what it
answers where nothing is pending, and what phase 1 leaves in the slots. -/

namespace Sys2Proof.Machine

/-- A read changes no cell: it may only take free values. -/
theorem State.readCache_snd (s : State) (a : Agent) (c : CacheSel) :
    (s.readCache a c).2 = s ∨ (s.readCache a c).2 = s.drawn 3 := by
  unfold State.readCache
  split
  · exact .inl rfl
  · exact .inr rfl

@[simp] theorem State.readCache_cfg (s : State) (a : Agent) (c : CacheSel) :
    (s.readCache a c).2.cfg = s.cfg := by
  rcases s.readCache_snd a c with h | h <;> (rw [h]; try rfl)

@[simp] theorem State.readCache_disp (s : State) (a : Agent) (c : CacheSel) :
    (s.readCache a c).2.disp = s.disp := by
  rcases s.readCache_snd a c with h | h <;> (rw [h]; try rfl)

@[simp] theorem State.readCache_rtc (s : State) (a : Agent) (c : CacheSel) :
    (s.readCache a c).2.rtc = s.rtc := by
  rcases s.readCache_snd a c with h | h <;> (rw [h]; try rfl)

@[simp] theorem State.readCache_led (s : State) (a : Agent) (c : CacheSel) :
    (s.readCache a c).2.led = s.led := by
  rcases s.readCache_snd a c with h | h <;> (rw [h]; try rfl)

@[simp] theorem State.readCache_out (s : State) (a : Agent) (c : CacheSel) :
    (s.readCache a c).2.out = s.out := by
  rcases s.readCache_snd a c with h | h <;> (rw [h]; try rfl)

@[simp] theorem State.readCache_sim (s : State) (a : Agent) (c : CacheSel) :
    (s.readCache a c).2.inp.sim = s.inp.sim := by
  rcases s.readCache_snd a c with h | h <;> (rw [h]; try rfl)

/-- With nothing pending from another agent, a read gives the cell (R37). -/
theorem State.readCache_quiet (s : State) (a : Agent) (c : CacheSel)
    (h : (s.rtc.pend c).others a = []) : s.readCache a c = (s.rtc.cache c, s) := by
  unfold State.readCache
  rw [h]

/-- A written temporary reads as its value and takes no free value (R20). -/
@[simp] theorem State.readTemporary_some (s : State) (t : Time) :
    s.readTemporary (some t) = (t, s) := rfl

/-- A read of a temporary changes no cell: it may only take a free value. -/
theorem State.readTemporary_snd (s : State) (x : Option Time) :
    (s.readTemporary x).2 = s ∨ (s.readTemporary x).2 = s.drawn 1 := by
  cases x
  · exact .inr rfl
  · exact .inl rfl

theorem State.readGrid_snd (s : State) (k : Fin 6) :
    ∃ n, (s.readGrid k).2 = s.drawn n := by
  unfold State.readGrid
  split
  · exact ⟨0, rfl⟩
  · split
    · exact ⟨4, rfl⟩
    · exact ⟨1, rfl⟩

/-- With nothing pending, the multiplex step reads the entry (R37). -/
theorem State.readGrid_quiet (s : State) (k : Fin 6) (h : s.disp.gridPend.get k = none) :
    s.readGrid k = (s.disp.grid.get k, s) := by
  unfold State.readGrid
  rw [h]

/-- The frame of the selected digit is fetched without touching a cell. -/
theorem State.fetchFrame_snd (s : State) : ∃ n, s.fetchFrame.2 = s.drawn n := by
  obtain ⟨n, hn⟩ := s.readGrid_snd s.disp.muxIdx
  cases hr : (s.readGrid s.disp.muxIdx).1 with
  | some e => exact ⟨n, by simp only [State.fetchFrame, hr, hn]⟩
  | none =>
    refine ⟨n + 1, ?_⟩
    simp only [State.fetchFrame, hr, hn]
    simp [State.drawn, State.withInp, Nat.add_assoc]

/-- A torn field is the current value or one of the pending ones (R40). -/
theorem tornField_mem {α : Type} (x : α) (others : List α) (n : Nat) :
    tornField x others n ∈ x :: others := by
  have h : Config.freePick n % (others.length + 1) < (x :: others).length := by
    simpa using Nat.mod_lt _ (Nat.succ_pos others.length)
  unfold tornField
  rw [List.getD_eq_getElem (x :: others) x h]
  exact List.getElem_mem h

@[simp] theorem Pending.put_host_host (p : Pending) (t : Option Time) : (p.put .host t).host = t := rfl

@[simp] theorem Pending.put_host_recTask (p : Pending) (t : Option Time) :
    (p.put .host t).recTask = p.recTask := rfl

@[simp] theorem Pending.put_recTask_recTask (p : Pending) (t : Option Time) :
    (p.put .recTask t).recTask = t := rfl

@[simp] theorem Pending.put_recTask_host (p : Pending) (t : Option Time) :
    (p.put .recTask t).host = p.host := rfl

end Sys2Proof.Machine
end

