-- ==== Sys2Proof/Laws/LedTick.lean ====
section
/-! SUPPORT. The LED tick as one update of the LED unit (R156 to R159). -/

namespace Sys2Proof.Machine

/-- The read of the alarm LEDs changes no cell. -/
theorem State.alarmLeds_snd (s : State) : ∃ n, s.alarmLeds.2 = s.drawn n := by
  unfold State.alarmLeds
  split
  · exact ⟨0, rfl⟩
  · rcases s.readCache_snd .ledTimer .clock with h | h
    · exact ⟨0, h⟩
    · exact ⟨3, h⟩

/-- The flash counts down by one and is dark at its end (R159). -/
theorem LedUnit.flashTick_eq (l : LedUnit) :
    LedUnit.flashTick l =
      { l with
        flashLeft := l.flashLeft - 1
        flashCol := if l.flashLeft = 1 then .dark else l.flashCol } := by
  unfold LedUnit.flashTick
  by_cases h : l.flashLeft > 0
  · rw [if_pos h]
    have e : l.flashLeft - 1 = 0 ↔ l.flashLeft = 1 := by omega
    simp only [e]
  · have h0 : l.flashLeft = 0 := by omega
    rw [if_neg h]
    cases l
    simp only at h0
    subst h0
    rfl

/-- The whole tick: only the LED unit changes, and free values may be taken. -/
theorem State.ledTick_eq (s : State) :
    ∃ n l, l = LedUnit.flashTick
        (LedUnit.aimAlarms s.cfg (LedUnit.aimStatus s.cfg s.led (statusColour s.led s.rtc.online))
          s.alarmLeds.1.1 s.alarmLeds.1.2) ∧
      s.ledTick =
        { s with
          inp := { s.inp with draws := s.inp.draws + n }
          led := { l with chan := Six.zip (rampChannel s.cfg) s.cfg.rampStep l.chan } } := by
  obtain ⟨n, hn⟩ := s.alarmLeds_snd
  refine ⟨n, _, rfl, ?_⟩
  unfold State.ledTick State.ramp State.sequencer
  simp only
  rw [hn]
  rfl

end Sys2Proof.Machine
end

