-- ==== Sys2Proof/Laws/Mux.lean ====
section
/-! SUPPORT. The shift register (R90): one shift bit by bit, and the seventeen shifts of a frame at once. -/

namespace Sys2Proof.Machine

/-- Bit by bit, the stages after one shift in the decided order (R90). -/
theorem shiftIn_getLsbD (st : Frame) (b : Bool) (j : Nat) :
    (shiftIn .msbFirst st b).getLsbD j = if j = 0 then b else decide (j < 17) && st.getLsbD (j - 1) := by
  unfold shiftIn
  rw [BitVec.getLsbD_ofNat]
  cases j with
  | zero => cases b <;> simp [bitNat, Nat.testBit_zero, Nat.add_mod]
  | succ j =>
    rw [Nat.testBit_succ]
    have h : (st.toNat * 2 + bitNat b) / 2 = st.toNat := by cases b <;> (simp [bitNat]; try omega)
    rw [h]
    simp [BitVec.getLsbD]

/-- Seventeen shifts leave the frame in the stages, whatever was in them. -/
theorem shiftIn_frame (st f : Frame) :
    (ShiftOrder.positions .msbFirst).foldl (fun st j => shiftIn .msbFirst st (f.getLsbD j)) st = f := by
  apply BitVec.eq_of_getLsbD_eq
  intro j hj
  simp only [ShiftOrder.positions, List.foldl]
  have h : j = 0 ∨ j = 1 ∨ j = 2 ∨ j = 3 ∨ j = 4 ∨ j = 5 ∨ j = 6 ∨ j = 7 ∨ j = 8 ∨ j = 9 ∨ j = 10 ∨ j = 11 ∨
      j = 12 ∨ j = 13 ∨ j = 14 ∨ j = 15 ∨ j = 16 := by omega
  rcases h with rfl | rfl | rfl | rfl | rfl | rfl | rfl | rfl | rfl | rfl | rfl | rfl | rfl | rfl | rfl | rfl |
    rfl <;> simp only [shiftIn_getLsbD] <;> simp

/-- The pin events of the shift of one bit (R90, R95). -/
def shiftEvents (f : Frame) (j : Nat) : List PinEvent :=
  [⟨.srData, f.getLsbD j⟩, ⟨.srClk, true⟩, ⟨.srClk, false⟩]

/-- The bits at `l` of a frame shifted in one after the other. -/
theorem State.shiftBits_eq (f : Frame) (l : List Nat) (s : State) (h : s.cfg.shiftOrder = .msbFirst) :
    l.foldl (fun s j => s.shiftBit (f.getLsbD j)) s =
      { s with
        disp :=
          { s.disp with
            srStage := l.foldl (fun st j => shiftIn .msbFirst st (f.getLsbD j)) s.disp.srStage
            srData := l.foldl (fun _ j => f.getLsbD j) s.disp.srData
            srClk := l.foldl (fun _ _ => false) s.disp.srClk }
        out := { s.out with pins := s.out.pins ++ l.flatMap (shiftEvents f) } } := by
  induction l generalizing s with
  | nil => simp
  | cons a l ih =>
    have hs : s.shiftBit (f.getLsbD a) =
        { s with
          disp :=
            { s.disp with
              srData := f.getLsbD a
              srStage := shiftIn .msbFirst s.disp.srStage (f.getLsbD a)
              srClk := false }
          out := { s.out with pins := s.out.pins ++ shiftEvents f a } } := by
      rw [← h]
      rfl
    rw [List.foldl_cons, ih (s.shiftBit (f.getLsbD a)) h, hs]
    simp [List.foldl_cons, List.flatMap_cons, List.append_assoc]

/-- Step 3 of the multiplex step (R89), for the decided order (R45). -/
theorem State.shiftFrame_eq (s : State) (f : Frame) (h : s.cfg.shiftOrder = .msbFirst) :
    s.shiftFrame f =
      { s with
        disp := { s.disp with srStage := f, srData := f.getLsbD 0, srClk := false }
        out :=
          { s.out with
            pins := s.out.pins ++ (ShiftOrder.positions .msbFirst).flatMap (shiftEvents f) } } := by
  unfold State.shiftFrame
  rw [h, State.shiftBits_eq f _ s h, shiftIn_frame]
  rfl

end Sys2Proof.Machine
end

