-- ==== Sys2Proof/Laws/Operands.lean ====
section
/-! SUPPORT. The operand forms: one bit replaced (R107), a register byte decoded (R54, R110), what a getter's
answer stands for, the setters' operands (R111), and the bounds of the brightness mapping (R96). -/

namespace Sys2Proof.Machine

/-- One bit replaced, the others kept (R107). -/
theorem setBit_getLsbD (b : Byte) (i : Fin 8) (v : Bool) (j : Nat) :
    (setBit b i v).getLsbD j = if j = i.val then v else b.getLsbD j := by
  unfold setBit
  have hi := i.isLt
  by_cases hj : j < 8
  · cases v <;> (simp [hj]; by_cases h : j = i.val <;> simp [h])
  · have h1 := BitVec.getLsbD_of_ge b j (by omega)
    have h2 : j ≠ i.val := by omega
    have h3 : ¬ i.val = j := fun e => h2 e.symm
    cases v <;> simp [h1, hj, h2, h3]

/-- What a byte must be to have a value, and which (R54, R110). -/
theorem decodeForm_decode (f : DecodeForm) (b : Byte) (v : Nat) :
    f.decode b = some v ↔
      bcdValid (b &&& f.mask) = true ∧ v = f.base + unbcd (b &&& f.mask) ∧ f.low ≤ v ∧ v ≤ f.high := by
  unfold DecodeForm.decode
  constructor
  · intro h
    simp only at h
    split at h
    · next hc =>
      simp only [Bool.and_eq_true, decide_eq_true_eq] at hc
      cases h
      exact ⟨hc.1.1, rfl, hc.1.2, hc.2⟩
    · cases h
  · rintro ⟨h1, rfl, h3, h4⟩
    simp [h1, h3, h4]

/-- A decoded value is in its register's range (R54). -/
theorem params_dec_range (p : Params) (r : RtcReg) (f : DecodeForm) (b : Byte) (v : Nat)
    (hf : p.decodeForm r = some f) (h : p.dec r b = some v) : f.low ≤ v ∧ v ≤ f.high := by
  unfold Params.dec at h
  rw [hf] at h
  exact ((decodeForm_decode f b v).mp h).2.2

/-- What a getter of seconds, minutes and hours answers (R110). -/
theorem decodeTime_readsAs (p : Params) (rs : Regs3)
    (hrs : rs = timeRegs ∨ rs = alarmRegs .one ∨ rs = alarmRegs .two) (ans : Option Bytes3) :
    Params.ReadsAs p rs ans (p.decodeTime rs ans) := by
  unfold Params.ReadsAs Params.decodeTime
  cases ans with
  | none => rfl
  | some b =>
    simp only [Params.decThen]
    have bound : ∀ x y z, p.dec rs.r1 b.b1 = some x → p.dec rs.r2 b.b2 = some y →
        p.dec rs.r3 b.b3 = some z → x ≤ 59 ∧ y ≤ 59 ∧ z ≤ 23 := by
      intro x y z h1 h2 h3
      rcases hrs with rfl | rfl | rfl <;>
        exact ⟨(params_dec_range p _ _ _ _ rfl h1).2, (params_dec_range p _ _ _ _ rfl h2).2,
          (params_dec_range p _ _ _ _ rfl h3).2⟩
    cases h1 : p.dec rs.r1 b.b1 with
    | none => rfl
    | some x =>
      cases h2 : p.dec rs.r2 b.b2 with
      | none => rfl
      | some y =>
        cases h3 : p.dec rs.r3 b.b3 with
        | none => rfl
        | some z =>
          obtain ⟨b1, b2, b3⟩ := bound x y z h1 h2 h3
          refine ⟨_, rfl, ?_, ?_, ?_⟩ <;> (simp only [timeOf, Fin.val_ofNat]; omega)

theorem timeOf_val (h m s : Nat) (hv : h < 24 ∧ m < 60 ∧ s < 60) :
    (timeOf h m s).h.val = h ∧ (timeOf h m s).m.val = m ∧ (timeOf h m s).s.val = s := by
  simp only [timeOf, Fin.val_ofNat]
  omega

theorem setterTime_valid (h m s : BitVec 8) (hv : h.toNat < 24 ∧ m.toNat < 60 ∧ s.toNat < 60) :
    setterTime h m s = some (timeOf h.toNat m.toNat s.toNat) := by
  simp [setterTime, validTime, hv]

theorem setterTime_invalid (h m s : BitVec 8) (hv : ¬ (h.toNat < 24 ∧ m.toNat < 60 ∧ s.toNat < 60)) :
    setterTime h m s = none := by
  unfold setterTime validTime
  rw [if_neg]
  simpa [and_assoc] using hv

theorem operandTime_legal (h : BitVec 5) (m s : BitVec 6) (a : h.toNat ≤ 23) (b : m.toNat ≤ 59)
    (c : s.toNat ≤ 59) : operandTime h m s = some (timeOf h.toNat m.toNat s.toNat) := by
  unfold operandTime
  rw [if_pos]
  omega

theorem operandTime_illegal (h : BitVec 5) (m s : BitVec 6)
    (hv : ¬ (h.toNat ≤ 23 ∧ m.toNat ≤ 59 ∧ s.toNat ≤ 59)) : operandTime h m s = none := by
  unfold operandTime
  rw [if_neg]
  omega

/-- The brightness mapping stays between its two ends (R96). -/
theorem bright_bounds (a b p : Nat) (h1 : 1 ≤ p) (h2 : p ≤ 100) :
    ((min a b : Nat) : Int) ≤ (a : Int) + Int.tdiv (((p : Int) - 1) * ((b : Int) - a)) 99 ∧
      (a : Int) + Int.tdiv (((p : Int) - 1) * ((b : Int) - a)) 99 ≤ ((max a b : Nat) : Int) := by
  rcases le_total a b with h | h
  · have e : Int.tdiv (((p : Int) - 1) * ((b : Int) - a)) 99 = (((p : Int) - 1) * ((b : Int) - a)) / 99 :=
      Int.tdiv_eq_ediv_of_nonneg (by apply mul_nonneg <;> omega)
    rw [e]
    have l : (0 : Int) ≤ ((p : Int) - 1) * ((b : Int) - a) := by apply mul_nonneg <;> omega
    have u : ((p : Int) - 1) * ((b : Int) - a) ≤ 99 * ((b : Int) - a) := by
      apply mul_le_mul_of_nonneg_right <;> omega
    generalize ((p : Int) - 1) * ((b : Int) - a) = x at *
    omega
  · have e : ((p : Int) - 1) * ((b : Int) - a) = -(((p : Int) - 1) * ((a : Int) - b)) := by ring
    have e2 : Int.tdiv (((p : Int) - 1) * ((a : Int) - b)) 99 = (((p : Int) - 1) * ((a : Int) - b)) / 99 :=
      Int.tdiv_eq_ediv_of_nonneg (by apply mul_nonneg <;> omega)
    rw [e, Int.neg_tdiv, e2]
    have l : (0 : Int) ≤ ((p : Int) - 1) * ((a : Int) - b) := by apply mul_nonneg <;> omega
    have u : ((p : Int) - 1) * ((a : Int) - b) ≤ 99 * ((a : Int) - b) := by
      apply mul_le_mul_of_nonneg_right <;> omega
    generalize ((p : Int) - 1) * ((a : Int) - b) = x at *
    omega

end Sys2Proof.Machine
end

