-- ==== Sys2Proof/Laws/PerInstr.lean ====
section
/-! SUPPORT. The words of the opcode table, field by field: for each instruction, every field and every fixed
bit of its row of spec/opcode_table.json has in its word the value the instruction gives it (R55 to R70). -/

namespace Sys2Proof.Laws.TableWord

/-- A field of a word: bits hi down to lo, and their value. -/
structure FieldAt where
  hi : Nat
  lo : Nat
  value : Nat
  deriving DecidableEq, Repr

/-- The row of the opcode table of an instruction: its operand fields, and its fixed bits with their value. -/
def layout : Instr → List FieldAt
  | .dspWrgrid idx seg dots ub lb =>
    [⟨31, 26, 1⟩, ⟨25, 23, idx.val⟩, ⟨22, 17, 0⟩, ⟨16, 16, bitNat lb⟩, ⟨15, 15, bitNat ub⟩, ⟨14, 14, bitNat dots⟩, ⟨13, 0, seg.toNat⟩]
  | .dspSetbright pct => [⟨31, 7, 1048576⟩, ⟨6, 0, pct.toNat⟩]
  | .dspGetcmp => [⟨31, 0, 201326592⟩]
  | .dspEnable => [⟨31, 0, 268435456⟩]
  | .dspDisable => [⟨31, 0, 335544320⟩]
  | .rtcRdreg reg => [⟨31, 21, 256⟩, ⟨20, 16, reg.code⟩, ⟨15, 0, 0⟩]
  | .rtcWrreg reg val => [⟨31, 21, 288⟩, ⟨20, 16, reg.code⟩, ⟨15, 8, 0⟩, ⟨7, 0, val.toNat⟩]
  | .rtcUpdreg reg bit v =>
    [⟨31, 21, 320⟩, ⟨20, 16, reg.code⟩, ⟨15, 11, 0⟩, ⟨10, 8, bit.val⟩, ⟨7, 1, 0⟩, ⟨0, 0, bitNat v⟩]
  | .rtcGettime => [⟨31, 0, 738197504⟩]
  | .rtcSettime h m s => [⟨31, 24, 48⟩, ⟨23, 16, h.toNat⟩, ⟨15, 8, m.toNat⟩, ⟨7, 0, s.toNat⟩]
  | .rtcGetdate => [⟨31, 0, 872415232⟩]
  | .rtcSetdate day month year =>
    [⟨31, 26, 14⟩, ⟨25, 21, day.toNat⟩, ⟨20, 17, month.toNat⟩, ⟨16, 0, year.toNat⟩]
  | .rtcGetal1 => [⟨31, 0, 1006632960⟩]
  | .rtcGetal2 => [⟨31, 0, 1073741824⟩]
  | .rtcSetal1 h m s => [⟨31, 24, 68⟩, ⟨23, 16, h.toNat⟩, ⟨15, 8, m.toNat⟩, ⟨7, 0, s.toNat⟩]
  | .rtcSetal2 h m s => [⟨31, 24, 72⟩, ⟨23, 16, h.toNat⟩, ⟨15, 8, m.toNat⟩, ⟨7, 0, s.toNat⟩]
  | .rtcSetflag fid on => [⟨31, 19, 2432⟩, ⟨18, 16, fid.code⟩, ⟨15, 1, 0⟩, ⟨0, 0, bitNat on⟩]
  | .rtcSelftest => [⟨31, 0, 1342177280⟩]
  | .recSetmode v => [⟨31, 2, 402653184⟩, ⟨1, 0, v.code⟩]
  | .recSetstate v => [⟨31, 2, 419430400⟩, ⟨1, 0, v.code⟩]
  | .recSetclock h m s => [⟨31, 24, 104⟩, ⟨23, 16, h.toNat⟩, ⟨15, 8, m.toNat⟩, ⟨7, 0, s.toNat⟩]
  | .recSetal1 h m s => [⟨31, 24, 108⟩, ⟨23, 16, h.toNat⟩, ⟨15, 8, m.toNat⟩, ⟨7, 0, s.toNat⟩]
  | .recSetal2 h m s => [⟨31, 24, 112⟩, ⟨23, 16, h.toNat⟩, ⟨15, 8, m.toNat⟩, ⟨7, 0, s.toNat⟩]
  | .recIsonline => [⟨31, 0, 1946157056⟩]
  | .recRead tsel => [⟨31, 2, 503316480⟩, ⟨1, 0, tsel.code⟩]
  | .recStatus => [⟨31, 0, 2080374784⟩]
  | .timeAddh h m s n =>
    [⟨31, 26, 32⟩, ⟨25, 18, n.toNat⟩, ⟨17, 17, 0⟩, ⟨16, 12, h.toNat⟩, ⟨11, 6, m.toNat⟩, ⟨5, 0, s.toNat⟩]
  | .timeAddm h m s n =>
    [⟨31, 26, 33⟩, ⟨25, 18, n.toNat⟩, ⟨17, 17, 0⟩, ⟨16, 12, h.toNat⟩, ⟨11, 6, m.toNat⟩, ⟨5, 0, s.toNat⟩]
  | .timeSubh h m s n =>
    [⟨31, 26, 34⟩, ⟨25, 18, n.toNat⟩, ⟨17, 17, 0⟩, ⟨16, 12, h.toNat⟩, ⟨11, 6, m.toNat⟩, ⟨5, 0, s.toNat⟩]
  | .timeSubm h m s n =>
    [⟨31, 26, 35⟩, ⟨25, 18, n.toNat⟩, ⟨17, 17, 0⟩, ⟨16, 12, h.toNat⟩, ⟨11, 6, m.toNat⟩, ⟨5, 0, s.toNat⟩]
  | .timeAdds h m s n =>
    [⟨31, 26, 36⟩, ⟨25, 18, n.toNat⟩, ⟨17, 17, 0⟩, ⟨16, 12, h.toNat⟩, ⟨11, 6, m.toNat⟩, ⟨5, 0, s.toNat⟩]
  | .timeNorm5 h m s => [⟨31, 17, 18944⟩, ⟨16, 12, h.toNat⟩, ⟨11, 6, m.toNat⟩, ⟨5, 0, s.toNat⟩]
  | .pwmSetduty ch val => [⟨31, 26, 40⟩, ⟨25, 22, ch.val⟩, ⟨21, 16, 0⟩, ⟨15, 0, val.toNat⟩]
  | .pwmStart ch => [⟨31, 26, 41⟩, ⟨25, 22, ch.val⟩, ⟨21, 0, 0⟩]
  | .pwmStop ch => [⟨31, 26, 42⟩, ⟨25, 22, ch.val⟩, ⟨21, 0, 0⟩]
  | .ledSetlevel ch val => [⟨31, 26, 43⟩, ⟨25, 22, ch.val⟩, ⟨21, 16, 0⟩, ⟨15, 0, val.toNat⟩]
  | .stlFrameclr => [⟨31, 0, 3221225472⟩]
  | .stlAlarmleds a1 a2 => [⟨31, 2, 822083584⟩, ⟨1, 1, bitNat a2⟩, ⟨0, 0, bitNat a1⟩]
  | .stlFlash col => [⟨31, 2, 838860800⟩, ⟨1, 0, col.code⟩]
  | .stripToggle => [⟨31, 0, 3758096384⟩]
  | .stripNudge sel up => [⟨31, 2, 956301312⟩, ⟨1, 1, sel.code⟩, ⟨0, 0, bitNat up⟩]

/-- Every field of the instruction's row stands in its word. -/
def Statement (i : Instr) : Prop := ∀ f ∈ layout i, bits (encode i) f.hi f.lo = f.value

theorem bitNat_lt (b : Bool) : bitNat b < 2 := by cases b <;> decide

theorem RtcReg.code_lt (r : RtcReg) : r.code < 18 := by cases r <;> decide

theorem RtcFlag.code_lt (f : RtcFlag) : f.code < 7 := by cases f <;> decide

theorem AlarmMode.code_lt (v : AlarmMode) : v.code < 4 := by cases v <;> decide

theorem AlarmState.code_lt (v : AlarmState) : v.code < 4 := by cases v <;> decide

theorem CacheSel.code_lt (c : CacheSel) : c.code < 3 := by cases c <;> decide

theorem FlashColour.code_lt (c : FlashColour) : c.code < 3 := by cases c <;> decide

theorem StripSel.code_lt (c : StripSel) : c.code < 2 := by cases c <;> decide

/-- A field of a word given as a number. -/
theorem bits_ofNat (n hi lo : Nat) (h : n < 2 ^ 32) :
    bits (BitVec.ofNat 32 n) hi lo = n / 2 ^ lo % 2 ^ (hi + 1 - lo) := by
  unfold bits
  rw [BitVec.toNat_ofNat, Nat.mod_eq_of_lt h]

theorem dspWrgrid (idx : Fin 6) (seg : BitVec 14) (dots : Bool) (ub : Bool) (lb : Bool) :
    Statement (.dspWrgrid idx seg dots ub lb) := by
  have h0 := idx.isLt
  have h1 := seg.isLt
  have h2 := bitNat_lt dots
  have h3 := bitNat_lt ub
  have h4 := bitNat_lt lb
  simp only [Statement, layout, encode, packWord, Instr.opcode, Instr.low,
    List.forall_mem_cons, List.not_mem_nil, false_imp_iff, implies_true, and_true]
  repeat rw [bits_ofNat _ _ _ (by omega)]
  omega

theorem dspSetbright (pct : BitVec 7) : Statement (.dspSetbright pct) := by
  have h0 := pct.isLt
  simp only [Statement, layout, encode, packWord, Instr.opcode, Instr.low,
    List.forall_mem_cons, List.not_mem_nil, false_imp_iff, implies_true, and_true]
  repeat rw [bits_ofNat _ _ _ (by omega)]
  omega

theorem dspGetcmp : Statement .dspGetcmp := by
  unfold Statement
  decide

theorem dspEnable : Statement .dspEnable := by
  unfold Statement
  decide

theorem dspDisable : Statement .dspDisable := by
  unfold Statement
  decide

theorem rtcRdreg (reg : RtcReg) : Statement (.rtcRdreg reg) := by
  have h0 := RtcReg.code_lt reg
  simp only [Statement, layout, encode, packWord, Instr.opcode, Instr.low,
    List.forall_mem_cons, List.not_mem_nil, false_imp_iff, implies_true, and_true]
  repeat rw [bits_ofNat _ _ _ (by omega)]
  omega

theorem rtcWrreg (reg : RtcReg) (val : Byte) : Statement (.rtcWrreg reg val) := by
  have h0 := RtcReg.code_lt reg
  have h1 := val.isLt
  simp only [Statement, layout, encode, packWord, Instr.opcode, Instr.low,
    List.forall_mem_cons, List.not_mem_nil, false_imp_iff, implies_true, and_true]
  repeat rw [bits_ofNat _ _ _ (by omega)]
  omega

theorem rtcUpdreg (reg : RtcReg) (bit : Fin 8) (v : Bool) : Statement (.rtcUpdreg reg bit v) := by
  have h0 := RtcReg.code_lt reg
  have h1 := bit.isLt
  have h2 := bitNat_lt v
  simp only [Statement, layout, encode, packWord, Instr.opcode, Instr.low,
    List.forall_mem_cons, List.not_mem_nil, false_imp_iff, implies_true, and_true]
  repeat rw [bits_ofNat _ _ _ (by omega)]
  omega

theorem rtcGettime : Statement .rtcGettime := by
  unfold Statement
  decide

theorem rtcSettime (h : BitVec 8) (m : BitVec 8) (s : BitVec 8) : Statement (.rtcSettime h m s) := by
  have h0 := h.isLt
  have h1 := m.isLt
  have h2 := s.isLt
  simp only [Statement, layout, encode, packWord, Instr.opcode, Instr.low, lowT,
    List.forall_mem_cons, List.not_mem_nil, false_imp_iff, implies_true, and_true]
  repeat rw [bits_ofNat _ _ _ (by omega)]
  omega

theorem rtcGetdate : Statement .rtcGetdate := by
  unfold Statement
  decide

theorem rtcSetdate (day : BitVec 5) (month : BitVec 4) (year : BitVec 17) :
    Statement (.rtcSetdate day month year) := by
  have h0 := day.isLt
  have h1 := month.isLt
  have h2 := year.isLt
  simp only [Statement, layout, encode, packWord, Instr.opcode, Instr.low,
    List.forall_mem_cons, List.not_mem_nil, false_imp_iff, implies_true, and_true]
  repeat rw [bits_ofNat _ _ _ (by omega)]
  omega

theorem rtcGetal1 : Statement .rtcGetal1 := by
  unfold Statement
  decide

theorem rtcGetal2 : Statement .rtcGetal2 := by
  unfold Statement
  decide

theorem rtcSetal1 (h : BitVec 8) (m : BitVec 8) (s : BitVec 8) : Statement (.rtcSetal1 h m s) := by
  have h0 := h.isLt
  have h1 := m.isLt
  have h2 := s.isLt
  simp only [Statement, layout, encode, packWord, Instr.opcode, Instr.low, lowT,
    List.forall_mem_cons, List.not_mem_nil, false_imp_iff, implies_true, and_true]
  repeat rw [bits_ofNat _ _ _ (by omega)]
  omega

theorem rtcSetal2 (h : BitVec 8) (m : BitVec 8) (s : BitVec 8) : Statement (.rtcSetal2 h m s) := by
  have h0 := h.isLt
  have h1 := m.isLt
  have h2 := s.isLt
  simp only [Statement, layout, encode, packWord, Instr.opcode, Instr.low, lowT,
    List.forall_mem_cons, List.not_mem_nil, false_imp_iff, implies_true, and_true]
  repeat rw [bits_ofNat _ _ _ (by omega)]
  omega

theorem rtcSetflag (fid : RtcFlag) (on : Bool) : Statement (.rtcSetflag fid on) := by
  have h0 := RtcFlag.code_lt fid
  have h1 := bitNat_lt on
  simp only [Statement, layout, encode, packWord, Instr.opcode, Instr.low,
    List.forall_mem_cons, List.not_mem_nil, false_imp_iff, implies_true, and_true]
  repeat rw [bits_ofNat _ _ _ (by omega)]
  omega

theorem rtcSelftest : Statement .rtcSelftest := by
  unfold Statement
  decide

theorem recSetmode (v : AlarmMode) : Statement (.recSetmode v) := by
  have h0 := AlarmMode.code_lt v
  simp only [Statement, layout, encode, packWord, Instr.opcode, Instr.low,
    List.forall_mem_cons, List.not_mem_nil, false_imp_iff, implies_true, and_true]
  repeat rw [bits_ofNat _ _ _ (by omega)]
  omega

theorem recSetstate (v : AlarmState) : Statement (.recSetstate v) := by
  have h0 := AlarmState.code_lt v
  simp only [Statement, layout, encode, packWord, Instr.opcode, Instr.low,
    List.forall_mem_cons, List.not_mem_nil, false_imp_iff, implies_true, and_true]
  repeat rw [bits_ofNat _ _ _ (by omega)]
  omega

theorem recSetclock (h : BitVec 8) (m : BitVec 8) (s : BitVec 8) : Statement (.recSetclock h m s) := by
  have h0 := h.isLt
  have h1 := m.isLt
  have h2 := s.isLt
  simp only [Statement, layout, encode, packWord, Instr.opcode, Instr.low, lowT,
    List.forall_mem_cons, List.not_mem_nil, false_imp_iff, implies_true, and_true]
  repeat rw [bits_ofNat _ _ _ (by omega)]
  omega

theorem recSetal1 (h : BitVec 8) (m : BitVec 8) (s : BitVec 8) : Statement (.recSetal1 h m s) := by
  have h0 := h.isLt
  have h1 := m.isLt
  have h2 := s.isLt
  simp only [Statement, layout, encode, packWord, Instr.opcode, Instr.low, lowT,
    List.forall_mem_cons, List.not_mem_nil, false_imp_iff, implies_true, and_true]
  repeat rw [bits_ofNat _ _ _ (by omega)]
  omega

theorem recSetal2 (h : BitVec 8) (m : BitVec 8) (s : BitVec 8) : Statement (.recSetal2 h m s) := by
  have h0 := h.isLt
  have h1 := m.isLt
  have h2 := s.isLt
  simp only [Statement, layout, encode, packWord, Instr.opcode, Instr.low, lowT,
    List.forall_mem_cons, List.not_mem_nil, false_imp_iff, implies_true, and_true]
  repeat rw [bits_ofNat _ _ _ (by omega)]
  omega

theorem recIsonline : Statement .recIsonline := by
  unfold Statement
  decide

theorem recRead (tsel : CacheSel) : Statement (.recRead tsel) := by
  have h0 := CacheSel.code_lt tsel
  simp only [Statement, layout, encode, packWord, Instr.opcode, Instr.low,
    List.forall_mem_cons, List.not_mem_nil, false_imp_iff, implies_true, and_true]
  repeat rw [bits_ofNat _ _ _ (by omega)]
  omega

theorem recStatus : Statement .recStatus := by
  unfold Statement
  decide

theorem timeAddh (h : BitVec 5) (m : BitVec 6) (s : BitVec 6) (n : BitVec 8) :
    Statement (.timeAddh h m s n) := by
  have h0 := h.isLt
  have h1 := m.isLt
  have h2 := s.isLt
  have h3 := n.isLt
  simp only [Statement, layout, encode, packWord, Instr.opcode, Instr.low, lowX,
    List.forall_mem_cons, List.not_mem_nil, false_imp_iff, implies_true, and_true]
  repeat rw [bits_ofNat _ _ _ (by omega)]
  omega

theorem timeAddm (h : BitVec 5) (m : BitVec 6) (s : BitVec 6) (n : BitVec 8) :
    Statement (.timeAddm h m s n) := by
  have h0 := h.isLt
  have h1 := m.isLt
  have h2 := s.isLt
  have h3 := n.isLt
  simp only [Statement, layout, encode, packWord, Instr.opcode, Instr.low, lowX,
    List.forall_mem_cons, List.not_mem_nil, false_imp_iff, implies_true, and_true]
  repeat rw [bits_ofNat _ _ _ (by omega)]
  omega

theorem timeSubh (h : BitVec 5) (m : BitVec 6) (s : BitVec 6) (n : BitVec 8) :
    Statement (.timeSubh h m s n) := by
  have h0 := h.isLt
  have h1 := m.isLt
  have h2 := s.isLt
  have h3 := n.isLt
  simp only [Statement, layout, encode, packWord, Instr.opcode, Instr.low, lowX,
    List.forall_mem_cons, List.not_mem_nil, false_imp_iff, implies_true, and_true]
  repeat rw [bits_ofNat _ _ _ (by omega)]
  omega

theorem timeSubm (h : BitVec 5) (m : BitVec 6) (s : BitVec 6) (n : BitVec 8) :
    Statement (.timeSubm h m s n) := by
  have h0 := h.isLt
  have h1 := m.isLt
  have h2 := s.isLt
  have h3 := n.isLt
  simp only [Statement, layout, encode, packWord, Instr.opcode, Instr.low, lowX,
    List.forall_mem_cons, List.not_mem_nil, false_imp_iff, implies_true, and_true]
  repeat rw [bits_ofNat _ _ _ (by omega)]
  omega

theorem timeAdds (h : BitVec 5) (m : BitVec 6) (s : BitVec 6) (n : BitVec 8) :
    Statement (.timeAdds h m s n) := by
  have h0 := h.isLt
  have h1 := m.isLt
  have h2 := s.isLt
  have h3 := n.isLt
  simp only [Statement, layout, encode, packWord, Instr.opcode, Instr.low, lowX,
    List.forall_mem_cons, List.not_mem_nil, false_imp_iff, implies_true, and_true]
  repeat rw [bits_ofNat _ _ _ (by omega)]
  omega

theorem timeNorm5 (h : BitVec 5) (m : BitVec 6) (s : BitVec 6) : Statement (.timeNorm5 h m s) := by
  have h0 := h.isLt
  have h1 := m.isLt
  have h2 := s.isLt
  simp only [Statement, layout, encode, packWord, Instr.opcode, Instr.low, lowX,
    List.forall_mem_cons, List.not_mem_nil, false_imp_iff, implies_true, and_true]
  repeat rw [bits_ofNat _ _ _ (by omega)]
  omega

theorem pwmSetduty (ch : Fin 6) (val : BitVec 16) : Statement (.pwmSetduty ch val) := by
  have h0 := ch.isLt
  have h1 := val.isLt
  simp only [Statement, layout, encode, packWord, Instr.opcode, Instr.low,
    List.forall_mem_cons, List.not_mem_nil, false_imp_iff, implies_true, and_true]
  repeat rw [bits_ofNat _ _ _ (by omega)]
  omega

theorem pwmStart (ch : Fin 6) : Statement (.pwmStart ch) := by
  have h0 := ch.isLt
  simp only [Statement, layout, encode, packWord, Instr.opcode, Instr.low,
    List.forall_mem_cons, List.not_mem_nil, false_imp_iff, implies_true, and_true]
  repeat rw [bits_ofNat _ _ _ (by omega)]
  omega

theorem pwmStop (ch : Fin 6) : Statement (.pwmStop ch) := by
  have h0 := ch.isLt
  simp only [Statement, layout, encode, packWord, Instr.opcode, Instr.low,
    List.forall_mem_cons, List.not_mem_nil, false_imp_iff, implies_true, and_true]
  repeat rw [bits_ofNat _ _ _ (by omega)]
  omega

theorem ledSetlevel (ch : Fin 6) (val : BitVec 16) : Statement (.ledSetlevel ch val) := by
  have h0 := ch.isLt
  have h1 := val.isLt
  simp only [Statement, layout, encode, packWord, Instr.opcode, Instr.low,
    List.forall_mem_cons, List.not_mem_nil, false_imp_iff, implies_true, and_true]
  repeat rw [bits_ofNat _ _ _ (by omega)]
  omega

theorem stlFrameclr : Statement .stlFrameclr := by
  unfold Statement
  decide

theorem stlAlarmleds (a1 : Bool) (a2 : Bool) : Statement (.stlAlarmleds a1 a2) := by
  have h0 := bitNat_lt a1
  have h1 := bitNat_lt a2
  simp only [Statement, layout, encode, packWord, Instr.opcode, Instr.low,
    List.forall_mem_cons, List.not_mem_nil, false_imp_iff, implies_true, and_true]
  repeat rw [bits_ofNat _ _ _ (by omega)]
  omega

theorem stlFlash (col : FlashColour) : Statement (.stlFlash col) := by
  have h0 := FlashColour.code_lt col
  simp only [Statement, layout, encode, packWord, Instr.opcode, Instr.low,
    List.forall_mem_cons, List.not_mem_nil, false_imp_iff, implies_true, and_true]
  repeat rw [bits_ofNat _ _ _ (by omega)]
  omega

theorem stripToggle : Statement .stripToggle := by
  unfold Statement
  decide

theorem stripNudge (sel : StripSel) (up : Bool) : Statement (.stripNudge sel up) := by
  have h0 := StripSel.code_lt sel
  have h1 := bitNat_lt up
  simp only [Statement, layout, encode, packWord, Instr.opcode, Instr.low,
    List.forall_mem_cons, List.not_mem_nil, false_imp_iff, implies_true, and_true]
  repeat rw [bits_ofNat _ _ _ (by omega)]
  omega

end Sys2Proof.Laws.TableWord
end

