-- ==== Sys2Proof/Laws/SimRtc.lean ====
section
/-! SUPPORT. What each bus primitive leaves of the reference simulator (R109): its bytes and the rest of its
script. -/

namespace Sys2Proof.Machine

theorem State.busStart_sim (s : State) (c : SimRtc) (h : s.inp.sim = some c) :
    s.busStart.2.inp.sim = some ⟨c.simReg, c.script.tail⟩ := by
  unfold State.busStart
  simp only [h]
  cases hs : c.script with
  | nil =>
    obtain ⟨r, sc⟩ := c
    cases hs
    exact h
  | cons ok rest => rfl

theorem State.busStart_link (s : State) (c : SimRtc) (h : s.inp.sim = some c) :
    s.busStart.1 = if c.script.headD true = true then .simOk else .simFail := by
  unfold State.busStart
  simp only [h]
  cases hs : c.script with
  | nil => rfl
  | cons ok rest => cases ok <;> rfl

theorem State.busStart_not_oracle (s : State) (c : SimRtc) (h : s.inp.sim = some c) :
    s.busStart.1 ≠ .oracle := by
  rw [s.busStart_link c h]
  split <;> simp

theorem State.writeItems_sim (s : State) (c : SimRtc) (h : s.inp.sim = some c) (l : Link)
    (items : List (Byte × Byte)) (hl : l ≠ .oracle) :
    (s.writeItems l items).2.inp.sim =
      some (if l = .simOk then ⟨storeItems c.simReg items, c.script⟩ else c) := by
  cases l
  · exact absurd rfl hl
  · simp [State.writeItems, State.simStore, h]
  · simp [State.writeItems, h]

theorem State.rmwBit_sim (s : State) (c : SimRtc) (h : s.inp.sim = some c) (l : Link) (a : Byte) (i : Fin 8)
    (v : Bool) (hl : l ≠ .oracle) :
    (s.rmwBit l a i v).2.inp.sim =
      some
        (if l = .simOk then
          ⟨Memory.write c.simReg a.toNat (setBit (Memory.read c.simReg a.toNat) i v), c.script⟩
        else c) := by
  cases l
  · exact absurd rfl hl
  · have h2 : (s.drive [.read a]).inp.sim = some c := h
    simp only [State.rmwBit, State.readOne]
    rw [State.writeItems_sim _ c h2 _ _ (by simp)]
    simp [State.simByte, h, storeItems]
  · simp [State.rmwBit, State.readOne, h]

theorem State.busRead1_sim (s : State) (c : SimRtc) (h : s.inp.sim = some c) (r : RtcReg) :
    (s.busRead1 r).2.inp.sim = some ⟨c.simReg, c.script.tail⟩ := by
  rw [← s.busStart_sim c h]
  have hl := s.busStart_not_oracle c h
  unfold State.busRead1 State.transaction
  cases hk : s.busStart.1 with
  | oracle => exact absurd hk hl
  | simOk =>
    simp only [hk]
    rfl
  | simFail =>
    simp only [hk]
    rfl

theorem State.busRead3_sim (s : State) (c : SimRtc) (h : s.inp.sim = some c) (rs : Regs3) :
    (s.busRead3 rs).2.inp.sim = some ⟨c.simReg, c.script.tail⟩ := by
  rw [← s.busStart_sim c h]
  have hl := s.busStart_not_oracle c h
  unfold State.busRead3 State.transaction
  cases hk : s.busStart.1 with
  | oracle => exact absurd hk hl
  | simOk =>
    simp only [hk]
    rfl
  | simFail =>
    simp only [hk]
    rfl

theorem State.busProbe_sim (s : State) (c : SimRtc) (h : s.inp.sim = some c) :
    s.busProbe.2.inp.sim = some ⟨c.simReg, c.script.tail⟩ := by
  rw [← s.busStart_sim c h]
  have hl := s.busStart_not_oracle c h
  unfold State.busProbe State.transaction
  cases hk : s.busStart.1 with
  | oracle => exact absurd hk hl
  | simOk =>
    simp only [hk]
    rfl
  | simFail =>
    simp only [hk]
    rfl

theorem State.busWrite_sim (s : State) (c : SimRtc) (h : s.inp.sim = some c) (items : List (RtcReg × Byte)) :
    (s.busWrite items).2.inp.sim =
      some
        ⟨if c.script.headD true = true then storeItems c.simReg (Params.atAddrs s.cfg items) else c.simReg,
          c.script.tail⟩ := by
  unfold State.busWrite State.transaction
  simp only [State.busStart_cfg, State.busStop, State.drive_inp]
  rw [State.writeItems_sim _ _ (s.busStart_sim c h) _ _ (s.busStart_not_oracle c h), s.busStart_link c h]
  generalize c.script.headD true = b
  cases b <;> simp

theorem State.busRmw_sim (s : State) (c : SimRtc) (h : s.inp.sim = some c) (a : Byte) (i : Fin 8) (v : Bool) :
    (s.busRmw a i v).2.inp.sim =
      some
        ⟨if c.script.headD true = true then
            Memory.write c.simReg a.toNat (setBit (Memory.read c.simReg a.toNat) i v)
          else c.simReg,
          c.script.tail⟩ := by
  unfold State.busRmw State.transaction
  simp only [State.busStop, State.drive_inp]
  rw [State.rmwBit_sim _ _ (s.busStart_sim c h) _ _ _ _ (s.busStart_not_oracle c h), s.busStart_link c h]
  generalize c.script.headD true = b
  cases b <;> simp

theorem State.setAlarm_sim (s : State) (c : SimRtc) (h : s.inp.sim = some c) (n : AlarmNo) (t : Time) :
    (s.setAlarm n t).2.inp.sim =
      some
        ⟨if c.script.headD true = true then
            let m := storeItems c.simReg (Params.atAddrs s.cfg (alarmItems s.cfg n t))
            Memory.write m (s.cfg.maskPlace n).addr.toNat
              (setBit (Memory.read m (s.cfg.maskPlace n).addr.toNat) (s.cfg.maskPlace n).bit true)
          else c.simReg,
          c.script.tail⟩ := by
  unfold State.setAlarm State.transaction
  simp only [State.busStop, State.drive_inp, State.busStart_cfg]
  have hl := s.busStart_not_oracle c h
  have hw := State.writeItems_sim _ _ (s.busStart_sim c h) s.busStart.1
    (Params.atAddrs s.cfg (alarmItems s.cfg n t)) hl
  rw [State.rmwBit_sim _ _ hw _ _ _ _ hl, s.busStart_link c h]
  generalize c.script.headD true = b
  cases b <;> simp

/-- Three bytes stored, read back at any address: the last one stored there (R109). -/
theorem storeItems_read3 (m : Memory) (hm : Memory.wf m = true) (a1 a2 a3 x y z : Byte) (a : Nat) :
    Memory.read (storeItems m [(a1, x), (a2, y), (a3, z)]) a =
      if a = a3.toNat then z
      else if a = a2.toNat then y
      else if a = a1.toNat then x
      else Memory.read m a := by
  simp only [storeItems, List.foldl]
  have w1 := Memory.write_wf m a1.toNat x hm
  have w2 := Memory.write_wf _ a2.toNat y w1
  split
  · next h => rw [h, Memory.read_write_same _ _ _ w2]
  · next h =>
    rw [Memory.read_write_other _ _ _ _ h]
    split
    · next h => rw [h, Memory.read_write_same _ _ _ w1]
    · next h =>
      rw [Memory.read_write_other _ _ _ _ h]
      split
      · next h => rw [h, Memory.read_write_same _ _ _ hm]
      · next h => rw [Memory.read_write_other _ _ _ _ h]

end Sys2Proof.Machine
end

