-- ==== Sys2Proof/Laws/Step.lean ====
section
/-! SUPPORT. One step taken apart: whose turn it is, what a turn may take of the inputs, what a read of a cache
may show (R40), and that a bracketed transaction leaves the bus released (R104). -/

namespace Sys2Proof.Machine

/-- Where the environment names the next agent, the step is its turn (R48). -/
theorem step_of_sched (s : State) (a : Agent) (as : List Agent) (h : s.inp.sched = a :: as) :
    step s = (s.withInp { s.inp with sched := as }).turn a := by
  unfold step State.nextAgent
  rw [h]

/-- Choosing the agent touches the inputs only. -/
theorem State.nextAgent_snd (s : State) :
    ∃ x : Inputs, s.nextAgent.2 = s.withInp x ∧ x.sim = s.inp.sim := by
  unfold State.nextAgent
  split <;> exact ⟨_, rfl, rfl⟩

/-- Presenting a word touches the inputs only. -/
theorem State.nextWord_snd (s : State) :
    ∃ x : Inputs, s.nextWord.2 = s.withInp x ∧ x.sim = s.inp.sim := by
  unfold State.nextWord
  split <;> exact ⟨_, rfl, rfl⟩

/-- A turn of `RecTask` with nothing pending is its micro-step (R126). -/
theorem step_recTask (s : State) (as : List Agent) (h : s.inp.sched = .recTask :: as)
    (hp : s.recPending = false) : step s = .next (s.withInp { s.inp with sched := as }).microStep := by
  rw [step_of_sched s .recTask as h]
  have h2 : (s.withInp { s.inp with sched := as }).recPending = false := hp
  simp only [State.turn, State.recTurn, h2]
  rfl

/-- The normalisation of a written alarm temporary (R135). -/
theorem State.fixStep_written (s : State) (n : AlarmNo) (next : RecPc) (t : Time)
    (h : s.rtc.tmpAlarm n = some t) : s.fixStep n next = (s.fixAlarm n t).goTo next := by
  unfold State.fixStep
  rw [h]
  rfl

/-- Phase 1 of `B_COMMIT` with all three temporaries written (R136). -/
theorem State.commitStep_written (s : State) (t a1 a2 : Time) (ht : s.rtc.tmpTime = some t)
    (h1 : s.rtc.tmpAl1 = some a1) (h2 : s.rtc.tmpAl2 = some a2) :
    s.commitStep = s.pendCommit t a1 a2 := by
  unfold State.commitStep
  rw [ht, h1, h2]
  rfl

/-- What a read of a cache answers (R37, R40). -/
theorem State.readCache_sees (s : State) (a : Agent) (x : CacheSel) : s.Sees a x (s.readCache a x).1 := by
  unfold State.readCache
  split
  · exact ⟨.inl rfl, .inl rfl, .inl rfl⟩
  · next v vs hv =>
    have aux : ∀ {β : Type} (f : Time → β) (x0 : β) (n : Nat),
        tornField x0 (List.map f (v :: vs)) n = x0 ∨
          ∃ w ∈ v :: vs, tornField x0 (List.map f (v :: vs)) n = f w := by
      intro β f x0 n
      rcases List.mem_cons.mp (tornField_mem x0 (List.map f (v :: vs)) n) with h | h
      · exact .inl h
      · obtain ⟨w, hw, e⟩ := List.mem_map.mp h
        exact .inr ⟨w, hw, e.symm⟩
    refine ⟨?_, ?_, ?_⟩ <;> rw [hv] <;> exact aux _ _ _

/-- With no slot of the Host pending its count is 0. -/
theorem State.hostSlots_zero (s : State) (h : s.hostPending = false) : s.hostSlots = 0 := by
  simp only [State.hostPending, Display.anyPend, Bool.or_eq_false_iff] at h
  obtain ⟨⟨⟨⟨⟨⟨⟨⟨a, b⟩, c⟩, d⟩, e⟩, f⟩, g⟩, i⟩, j⟩ := h
  unfold State.hostSlots
  rw [a, b, c, d, e, f, g, i, j]
  rfl

theorem busScan_append (b : Bool) (xs ys : List BusItem) :
    busScan b (xs ++ ys) = (busScan b xs).bind fun c => busScan c ys := by
  induction xs generalizing b with
  | nil => rfl
  | cons x xs ih => cases b <;> cases x <;> simp [busScan, ih]

/-- An item that stands inside a transaction (R104). -/
def BusItem.inside : BusItem → Bool
  | .read _ => true
  | .write _ _ => true
  | .probe => true
  | .start => false
  | .stop => false

theorem busScan_inside (xs : List BusItem) (h : ∀ x ∈ xs, x.inside = true) :
    busScan true xs = some true := by
  induction xs with
  | nil => rfl
  | cons x xs ih =>
    have hx := h x (by simp)
    have ih' := ih fun y hy => h y (by simp [hy])
    cases x <;> first | exact ih' | cases hx

/-- A transaction leaves the bus released (R104). -/
theorem busScan_bracketed (xs : List BusItem) (h : ∀ x ∈ xs, x.inside = true) :
    busScan false (bracketed xs) = some false := by
  unfold bracketed
  rw [List.cons_append]
  simp only [busScan]
  rw [busScan_append, busScan_inside xs h]
  rfl

end Sys2Proof.Machine
end

