-- ==== Sys2Proof/Laws/TimeArith.lean ====
section
/-! SUPPORT. The time of day as a number (R10): a Time is determined by its `tod`, and `fromTod` undoes it. -/

namespace Sys2Proof.Machine

theorem tod_lt (t : Time) : tod t < 86400 := by
  have h1 := t.h.isLt
  have h2 := t.m.isLt
  have h3 := t.s.isLt
  unfold tod
  omega

theorem tod_inj (a b : Time) (h : tod a = tod b) : a = b := by
  obtain ⟨ah, am, as⟩ := a
  obtain ⟨bh, bm, bs⟩ := b
  have h1 := am.isLt
  have h2 := as.isLt
  have h3 := bm.isLt
  have h4 := bs.isLt
  simp only [tod] at h
  simp only [Time.mk.injEq, Fin.ext_iff]
  omega

theorem tod_fromTod (x : Int) : (tod (fromTod x) : Int) = x % 86400 := by
  have h1 : (0 : Int) ≤ x % 86400 := Int.emod_nonneg x (by decide)
  have h2 : x % 86400 < 86400 := Int.emod_lt_of_pos x (by decide)
  simp only [tod, fromTod, timeOf, Fin.val_ofNat]
  omega

theorem fromTod_tod (t : Time) : fromTod (tod t) = t := by
  apply tod_inj
  have h := tod_fromTod (tod t)
  have hl := tod_lt t
  omega

end Sys2Proof.Machine
end

