-- ==== Sys2Proof/Laws/Word.lean ====
section
/-! SUPPORT. The fields of a packed word (R55), the bounds of an instruction's opcode and low bits, and that each
operand code is read back by its table. -/

namespace Sys2Proof

theorem packWord_toNat (op low : Nat) (ho : op < 64) (hl : low < 2 ^ 26) :
    (packWord op low).toNat = op * 2 ^ 26 + low := by
  unfold packWord
  rw [BitVec.toNat_ofNat]
  omega

/-- Bits 31:26 are the opcode. -/
theorem bits_packWord_op (op low : Nat) (ho : op < 64) (hl : low < 2 ^ 26) :
    bits (packWord op low) 31 26 = op := by
  unfold bits
  rw [packWord_toNat op low ho hl]
  omega

/-- A field below bit 26 is that field of the low bits. -/
theorem bits_packWord_low (op low hi lo : Nat) (ho : op < 64) (hl : low < 2 ^ 26) (hh : hi < 26)
    (hlo : lo ≤ hi) :
    bits (packWord op low) hi lo = low / 2 ^ lo % 2 ^ (hi + 1 - lo) := by
  unfold bits
  rw [packWord_toNat op low ho hl]
  obtain ⟨k, hk⟩ : ∃ k, hi + 1 = lo + k := ⟨hi + 1 - lo, by omega⟩
  obtain ⟨j, hj⟩ : ∃ j, 26 = lo + (k + j) := ⟨26 - lo - k, by omega⟩
  have hsub : hi + 1 - lo = k := by omega
  rw [hsub, hj, pow_add, ← mul_assoc, mul_right_comm, Nat.add_comm,
    Nat.add_mul_div_right _ _ (by positivity), pow_add, ← mul_assoc, mul_right_comm,
    Nat.add_mul_mod_self_right]

theorem Instr.opcode_lt (i : Instr) : i.opcode < 64 := by
  cases i <;> exact of_decide_eq_true rfl

@[simp] theorem sixOfCode_val (k : Fin 6) : sixOfCode k.val = some k := by
  unfold sixOfCode
  simp

@[simp] theorem RtcReg.ofCode_code (r : RtcReg) : RtcReg.ofCode r.code = some r := by cases r <;> rfl

@[simp] theorem RtcFlag.ofCode_code (f : RtcFlag) : RtcFlag.ofCode f.code = some f := by cases f <;> rfl

@[simp] theorem AlarmMode.ofCode_code (v : AlarmMode) : AlarmMode.ofCode v.code = v := by cases v <;> rfl

@[simp] theorem AlarmState.ofCode_code (v : AlarmState) : AlarmState.ofCode v.code = v := by cases v <;> rfl

@[simp] theorem CacheSel.ofCode_code (c : CacheSel) : CacheSel.ofCode c.code = some c := by cases c <;> rfl

@[simp] theorem FlashColour.ofCode_code (c : FlashColour) : FlashColour.ofCode c.code = some c := by
  cases c <;> rfl

/-! ### The format of each opcode (R70) -/

theorem decodeWord_dspWrgrid (w : Command) (h : bits w 31 26 = 0x01) :
    decodeWord w = decodeG w .dspWrgrid := by
  delta decodeWord
  rw [h]
  rfl

theorem decodeWord_dspSetbright (w : Command) (h : bits w 31 26 = 0x02) :
    decodeWord w = decodeB w .dspSetbright := by
  delta decodeWord
  rw [h]
  rfl

theorem decodeWord_dspGetcmp (w : Command) (h : bits w 31 26 = 0x03) :
    decodeWord w = decodeN w .dspGetcmp := by
  delta decodeWord
  rw [h]
  rfl

theorem decodeWord_dspEnable (w : Command) (h : bits w 31 26 = 0x04) :
    decodeWord w = decodeN w .dspEnable := by
  delta decodeWord
  rw [h]
  rfl

theorem decodeWord_dspDisable (w : Command) (h : bits w 31 26 = 0x05) :
    decodeWord w = decodeN w .dspDisable := by
  delta decodeWord
  rw [h]
  rfl

theorem decodeWord_rtcRdreg (w : Command) (h : bits w 31 26 = 0x08) :
    decodeWord w = decodeRread w .rtcRdreg := by
  delta decodeWord
  rw [h]
  rfl

theorem decodeWord_rtcWrreg (w : Command) (h : bits w 31 26 = 0x09) :
    decodeWord w = decodeRwrite w .rtcWrreg := by
  delta decodeWord
  rw [h]
  rfl

theorem decodeWord_rtcUpdreg (w : Command) (h : bits w 31 26 = 0x0A) :
    decodeWord w = decodeRupdate w .rtcUpdreg := by
  delta decodeWord
  rw [h]
  rfl

theorem decodeWord_rtcGettime (w : Command) (h : bits w 31 26 = 0x0B) :
    decodeWord w = decodeN w .rtcGettime := by
  delta decodeWord
  rw [h]
  rfl

theorem decodeWord_rtcSettime (w : Command) (h : bits w 31 26 = 0x0C) :
    decodeWord w = decodeT w .rtcSettime := by
  delta decodeWord
  rw [h]
  rfl

theorem decodeWord_rtcGetdate (w : Command) (h : bits w 31 26 = 0x0D) :
    decodeWord w = decodeN w .rtcGetdate := by
  delta decodeWord
  rw [h]
  rfl

theorem decodeWord_rtcSetdate (w : Command) (h : bits w 31 26 = 0x0E) :
    decodeWord w = decodeD w .rtcSetdate := by
  delta decodeWord
  rw [h]
  rfl

theorem decodeWord_rtcGetal1 (w : Command) (h : bits w 31 26 = 0x0F) :
    decodeWord w = decodeN w .rtcGetal1 := by
  delta decodeWord
  rw [h]
  rfl

theorem decodeWord_rtcGetal2 (w : Command) (h : bits w 31 26 = 0x10) :
    decodeWord w = decodeN w .rtcGetal2 := by
  delta decodeWord
  rw [h]
  rfl

theorem decodeWord_rtcSetal1 (w : Command) (h : bits w 31 26 = 0x11) :
    decodeWord w = decodeT w .rtcSetal1 := by
  delta decodeWord
  rw [h]
  rfl

theorem decodeWord_rtcSetal2 (w : Command) (h : bits w 31 26 = 0x12) :
    decodeWord w = decodeT w .rtcSetal2 := by
  delta decodeWord
  rw [h]
  rfl

theorem decodeWord_rtcSetflag (w : Command) (h : bits w 31 26 = 0x13) :
    decodeWord w = decodeF w .rtcSetflag := by
  delta decodeWord
  rw [h]
  rfl

theorem decodeWord_rtcSelftest (w : Command) (h : bits w 31 26 = 0x14) :
    decodeWord w = decodeN w .rtcSelftest := by
  delta decodeWord
  rw [h]
  rfl

theorem decodeWord_recSetmode (w : Command) (h : bits w 31 26 = 0x18) :
    decodeWord w = decodeM w fun v => .recSetmode (AlarmMode.ofCode v) := by
  delta decodeWord
  rw [h]
  rfl

theorem decodeWord_recSetstate (w : Command) (h : bits w 31 26 = 0x19) :
    decodeWord w = decodeM w fun v => .recSetstate (AlarmState.ofCode v) := by
  delta decodeWord
  rw [h]
  rfl

theorem decodeWord_recSetclock (w : Command) (h : bits w 31 26 = 0x1A) :
    decodeWord w = decodeT w .recSetclock := by
  delta decodeWord
  rw [h]
  rfl

theorem decodeWord_recSetal1 (w : Command) (h : bits w 31 26 = 0x1B) :
    decodeWord w = decodeT w .recSetal1 := by
  delta decodeWord
  rw [h]
  rfl

theorem decodeWord_recSetal2 (w : Command) (h : bits w 31 26 = 0x1C) :
    decodeWord w = decodeT w .recSetal2 := by
  delta decodeWord
  rw [h]
  rfl

theorem decodeWord_recIsonline (w : Command) (h : bits w 31 26 = 0x1D) :
    decodeWord w = decodeN w .recIsonline := by
  delta decodeWord
  rw [h]
  rfl

theorem decodeWord_recRead (w : Command) (h : bits w 31 26 = 0x1E) :
    decodeWord w = decodeMread w .recRead := by
  delta decodeWord
  rw [h]
  rfl

theorem decodeWord_recStatus (w : Command) (h : bits w 31 26 = 0x1F) :
    decodeWord w = decodeN w .recStatus := by
  delta decodeWord
  rw [h]
  rfl

theorem decodeWord_timeAddh (w : Command) (h : bits w 31 26 = 0x20) :
    decodeWord w = decodeX w .timeAddh := by
  delta decodeWord
  rw [h]
  rfl

theorem decodeWord_timeAddm (w : Command) (h : bits w 31 26 = 0x21) :
    decodeWord w = decodeX w .timeAddm := by
  delta decodeWord
  rw [h]
  rfl

theorem decodeWord_timeSubh (w : Command) (h : bits w 31 26 = 0x22) :
    decodeWord w = decodeX w .timeSubh := by
  delta decodeWord
  rw [h]
  rfl

theorem decodeWord_timeSubm (w : Command) (h : bits w 31 26 = 0x23) :
    decodeWord w = decodeX w .timeSubm := by
  delta decodeWord
  rw [h]
  rfl

theorem decodeWord_timeAdds (w : Command) (h : bits w 31 26 = 0x24) :
    decodeWord w = decodeX w .timeAdds := by
  delta decodeWord
  rw [h]
  rfl

theorem decodeWord_timeNorm5 (w : Command) (h : bits w 31 26 = 0x25) :
    decodeWord w = decodeX0 w .timeNorm5 := by
  delta decodeWord
  rw [h]
  rfl

theorem decodeWord_pwmSetduty (w : Command) (h : bits w 31 26 = 0x28) :
    decodeWord w = decodeP w .pwmSetduty := by
  delta decodeWord
  rw [h]
  rfl

theorem decodeWord_pwmStart (w : Command) (h : bits w 31 26 = 0x29) :
    decodeWord w = decodeC w .pwmStart := by
  delta decodeWord
  rw [h]
  rfl

theorem decodeWord_pwmStop (w : Command) (h : bits w 31 26 = 0x2A) :
    decodeWord w = decodeC w .pwmStop := by
  delta decodeWord
  rw [h]
  rfl

theorem decodeWord_ledSetlevel (w : Command) (h : bits w 31 26 = 0x2B) :
    decodeWord w = decodeP w .ledSetlevel := by
  delta decodeWord
  rw [h]
  rfl

theorem decodeWord_stlFrameclr (w : Command) (h : bits w 31 26 = 0x30) :
    decodeWord w = decodeN w .stlFrameclr := by
  delta decodeWord
  rw [h]
  rfl

theorem decodeWord_stlAlarmleds (w : Command) (h : bits w 31 26 = 0x31) :
    decodeWord w = decodeA w .stlAlarmleds := by
  delta decodeWord
  rw [h]
  rfl

theorem decodeWord_stlFlash (w : Command) (h : bits w 31 26 = 0x32) :
    decodeWord w = decodeK w .stlFlash := by
  delta decodeWord
  rw [h]
  rfl

theorem decodeWord_stripToggle (w : Command) (h : bits w 31 26 = 0x38) :
    decodeWord w = decodeN w .stripToggle := by
  delta decodeWord
  rw [h]
  rfl

theorem decodeWord_stripNudge (w : Command) (h : bits w 31 26 = 0x39) :
    decodeWord w = decodeS w .stripNudge := by
  delta decodeWord
  rw [h]
  rfl

end Sys2Proof
end

