-- ==== Sys2Proof/Machine/Assembly.lean ====
section
/-! DEFINITION. The assembler spelling of each command (R74): `MNEMONIC op1, op2, ...`, with decimal numbers
and the names R74 lists. -/

namespace Sys2Proof

/-- The register names of R35. -/
def RtcReg.asmName : RtcReg → String
  | .seconds => "Seconds"
  | .minutes => "Minutes"
  | .hour => "Hour"
  | .dayOfWeek => "DayOfWeek"
  | .date => "Date"
  | .monthCentury => "MonthCentury"
  | .year => "Year"
  | .alarm1Seconds => "Alarm1Seconds"
  | .alarm1Minutes => "Alarm1Minutes"
  | .alarm1Hours => "Alarm1Hours"
  | .alarm2Seconds => "Alarm2Seconds"
  | .alarm2Minutes => "Alarm2Minutes"
  | .alarm2Hours => "Alarm2Hours"
  | .control => "Control"
  | .status => "Status"
  | .agingOffset => "AgingOffset"
  | .temperatureMsb => "TemperatureMSB"
  | .temperatureLsb => "TemperatureLSB"

/-- The flag names of R112. -/
def RtcFlag.asmName : RtcFlag → String
  | .sqw => "SQW"
  | .intOut => "INTOUT"
  | .a1ie => "A1IE"
  | .a2ie => "A2IE"
  | .en32k => "EN32K"
  | .a1f => "A1F"
  | .a2f => "A2F"

/-- The mode names of R74. -/
def AlarmMode.asmName : AlarmMode → String
  | .off => "Off"
  | .alarm1 => "Alarm1"
  | .alarm2 => "Alarm2"
  | .both => "Both"

/-- The state names of R74. -/
def AlarmState.asmName : AlarmState → String
  | .off => "Off"
  | .sunrise => "Sunrise"
  | .vibration => "Vibration"
  | .snooze => "Snooze"

/-- The cache names of R74. -/
def CacheSel.asmName : CacheSel → String
  | .clock => "clock"
  | .al1 => "al1"
  | .al2 => "al2"

/-- The channel names of R28. -/
def channelName (c : Fin 6) : String :=
  (Six.mk "STATUS_R" "STATUS_G" "ALARM1" "ALARM2" "STRIP_WARM" "STRIP_COLD").get c

/-- The colour names of R74. -/
def FlashColour.asmName : FlashColour → String
  | .green => "Green"
  | .red => "Red"

/-- The strip parameter names of R74. -/
def StripSel.asmName : StripSel → String
  | .brightness => "B"
  | .colour => "C"

/-- A Boolean operand. -/
def boolText (b : Bool) : String := if b then "1" else "0"

/-- `MNEMONIC op1, op2, ...`. -/
def asmLine (mnemonic : String) (ops : List String) : String :=
  if ops.isEmpty then mnemonic else mnemonic ++ " " ++ ", ".intercalate ops

/-- Operands `h, m, s`. -/
def timeTexts (h m s : Nat) : List String := [toString h, toString m, toString s]

/-- The command in the assembler's syntax (R74). -/
def Instr.asm : Instr → String
  | .dspWrgrid k seg dots ub lb =>
    asmLine "DSP.WRGRID" [toString k.val, toString seg.toNat, boolText dots, boolText ub, boolText lb]
  | .dspSetbright p => asmLine "DSP.SETBRIGHT" [toString p.toNat]
  | .dspGetcmp => asmLine "DSP.GETCMP" []
  | .dspEnable => asmLine "DSP.ENABLE" []
  | .dspDisable => asmLine "DSP.DISABLE" []
  | .rtcRdreg r => asmLine "RTC.RDREG" [r.asmName]
  | .rtcWrreg r v => asmLine "RTC.WRREG" [r.asmName, toString v.toNat]
  | .rtcUpdreg r b v => asmLine "RTC.UPDREG" [r.asmName, toString b.val, boolText v]
  | .rtcGettime => asmLine "RTC.GETTIME" []
  | .rtcSettime h m s => asmLine "RTC.SETTIME" (timeTexts h.toNat m.toNat s.toNat)
  | .rtcGetdate => asmLine "RTC.GETDATE" []
  | .rtcSetdate d m y => asmLine "RTC.SETDATE" (timeTexts d.toNat m.toNat y.toNat)
  | .rtcGetal1 => asmLine "RTC.GETAL1" []
  | .rtcGetal2 => asmLine "RTC.GETAL2" []
  | .rtcSetal1 h m s => asmLine "RTC.SETAL1" (timeTexts h.toNat m.toNat s.toNat)
  | .rtcSetal2 h m s => asmLine "RTC.SETAL2" (timeTexts h.toNat m.toNat s.toNat)
  | .rtcSetflag f on => asmLine "RTC.SETFLAG" [f.asmName, boolText on]
  | .rtcSelftest => asmLine "RTC.SELFTEST" []
  | .recSetmode v => asmLine "REC.SETMODE" [v.asmName]
  | .recSetstate v => asmLine "REC.SETSTATE" [v.asmName]
  | .recSetclock h m s => asmLine "REC.SETCLOCK" (timeTexts h.toNat m.toNat s.toNat)
  | .recSetal1 h m s => asmLine "REC.SETAL1" (timeTexts h.toNat m.toNat s.toNat)
  | .recSetal2 h m s => asmLine "REC.SETAL2" (timeTexts h.toNat m.toNat s.toNat)
  | .recIsonline => asmLine "REC.ISONLINE" []
  | .recRead c => asmLine "REC.READ" [c.asmName]
  | .recStatus => asmLine "REC.STATUS" []
  | .timeAddh h m s n => asmLine "TIME.ADDH" (timeTexts h.toNat m.toNat s.toNat ++ [toString n.toNat])
  | .timeAddm h m s n => asmLine "TIME.ADDM" (timeTexts h.toNat m.toNat s.toNat ++ [toString n.toNat])
  | .timeSubh h m s n => asmLine "TIME.SUBH" (timeTexts h.toNat m.toNat s.toNat ++ [toString n.toNat])
  | .timeSubm h m s n => asmLine "TIME.SUBM" (timeTexts h.toNat m.toNat s.toNat ++ [toString n.toNat])
  | .timeAdds h m s n => asmLine "TIME.ADDS" (timeTexts h.toNat m.toNat s.toNat ++ [toString n.toNat])
  | .timeNorm5 h m s => asmLine "TIME.NORM5" (timeTexts h.toNat m.toNat s.toNat)
  | .pwmSetduty c v => asmLine "PWM.SETDUTY" [channelName c, toString v.toNat]
  | .pwmStart c => asmLine "PWM.START" [channelName c]
  | .pwmStop c => asmLine "PWM.STOP" [channelName c]
  | .ledSetlevel c v => asmLine "LED.SETLEVEL" [channelName c, toString v.toNat]
  | .stlFrameclr => asmLine "STL.FRAMECLR" []
  | .stlAlarmleds a b => asmLine "STL.ALARMLEDS" [boolText a, boolText b]
  | .stlFlash c => asmLine "STL.FLASH" [c.asmName]
  | .stripToggle => asmLine "STRIP.TOGGLE" []
  | .stripNudge sel up => asmLine "STRIP.NUDGE" [sel.asmName, if up then "+" else "-"]

end Sys2Proof
end

