-- ==== Sys2Proof/Tests/Slice0.lean ====
section
/-! SUPPORT. The model's own tests, each by decide: the words of 95_test_vectors.md section 3.1, ill-formed
terms, one or two one-step vectors for each command and each agent's step, and for every statement with
hypotheses a concrete state and operands that meet them. Expected values are the spec's. -/

namespace Sys2Proof.Tests

open Sys2Proof.Machine

set_option Elab.async false

/-! ### The test configuration (95_test_vectors.md section 1) -/

/-- The test parameters of section 1. -/
def benchParams : Params :=
  { Params.someLegal with
    timerTop := 1023
    cmpAt1 := 10
    cmpAt100 := 1000
    dutyMax := 255
    levelMax := 255
    gamma := (List.range 256).map fun l => l * l / 255
    rampStep := ⟨255, 255, 255, 255, 8, 8⟩
    flashTicks := 3
    statusLevel := 255
    alarmLedLevel := 255
    stripBMax := 200
    cctMax := 100
    stripStepB := 20
    stripStepC := 10
    stripBReset := 100
    stripCctReset := 50 }

/-- The reset state with the reset draws of section 1 and the general oracle. -/
def plain : State := State.resetWith benchParams 5 0 0

/-- The same with `SimRtc` holding the bytes `m` and the script `script`. -/
def chip (m : Memory) (script : List Bool) : State :=
  plain.withInp { plain.inp with sim := some ⟨m, script⟩ }

/-- The next state of an outcome; `s` itself where there is none. -/
def nextOf (o : Host.Outcome State Fault Refusal) (s : State) : State :=
  match o with
  | .next t => t
  | .fault _ => s
  | .refused _ => s

/-- The state after a command. -/
def after (i : Instr) (s : State) : State := nextOf (exec i s) s

/-- `s` with these agents next. -/
def turns (as : List Agent) (s : State) : State := s.withInp { s.inp with sched := as }

/-- The state after one step of an agent. -/
def afterTurn (a : Agent) (s : State) : State := nextOf (step (turns [a] s)) s

/-- The Host's outcome of a command. -/
def outcomeOf (i : Instr) (s : State) : HostOutcome := (after i s).out.outcome

/-- The bytes of the simulator after a command. -/
def bytesAfter (i : Instr) (s : State) : Option Memory := (after i s).inp.sim.map (·.simReg)

/-! ### The encoding (30_encoding.md; words of section 3.1) -/

theorem test_decode_display :
    decodeWord 0x048040DB = .instr (.dspWrgrid 1 0x00DB true false false) ∧
      decodeWord 0x08000032 = .instr (.dspSetbright 50) ∧
      decodeWord 0x0C000000 = .instr .dspGetcmp ∧
      decodeWord 0x10000000 = .instr .dspEnable ∧
      decodeWord 0x14000000 = .instr .dspDisable := by decide

theorem test_decode_rtc_registers :
    decodeWord 0x20010000 = .instr (.rtcRdreg .minutes) ∧
      decodeWord 0x240F0005 = .instr (.rtcWrreg .agingOffset 5) ∧
      decodeWord 0x280D0001 = .instr (.rtcUpdreg .control 0 true) ∧
      decodeWord 0x4C010001 = .instr (.rtcSetflag .intOut true) ∧
      decodeWord 0x50000000 = .instr .rtcSelftest := by decide

theorem test_decode_rtc_time :
    decodeWord 0x2C000000 = .instr .rtcGettime ∧
      decodeWord 0x30070500 = .instr (.rtcSettime 7 5 0) ∧
      decodeWord 0x34000000 = .instr .rtcGetdate ∧
      decodeWord 0x3BA407E8 = .instr (.rtcSetdate 29 2 2024) ∧
      decodeWord 0x3C000000 = .instr .rtcGetal1 ∧
      decodeWord 0x40000000 = .instr .rtcGetal2 ∧
      decodeWord 0x440D1E00 = .instr (.rtcSetal1 13 30 0) ∧
      decodeWord 0x48060000 = .instr (.rtcSetal2 6 0 0) := by decide

theorem test_decode_reconciliation :
    decodeWord 0x60000001 = .instr (.recSetmode .alarm1) ∧
      decodeWord 0x64000000 = .instr (.recSetstate .off) ∧
      decodeWord 0x68070000 = .instr (.recSetclock 7 0 0) ∧
      decodeWord 0x6C0D1E00 = .instr (.recSetal1 13 30 0) ∧
      decodeWord 0x70060000 = .instr (.recSetal2 6 0 0) ∧
      decodeWord 0x74000000 = .instr .recIsonline ∧
      decodeWord 0x78000001 = .instr (.recRead .al1) ∧
      decodeWord 0x7C000000 = .instr .recStatus := by decide

theorem test_decode_time :
    decodeWord 0x80057780 = .instr (.timeAddh 23 30 0 1) ∧
      decodeWord 0x84057EC0 = .instr (.timeAddm 23 59 0 1) ∧
      decodeWord 0x88040000 = .instr (.timeSubh 0 0 0 1) ∧
      decodeWord 0x8C04001E = .instr (.timeSubm 0 0 30 1) ∧
      decodeWord 0x90057EFB = .instr (.timeAdds 23 59 59 1) ∧
      decodeWord 0x94007800 = .instr (.timeNorm5 7 32 0) := by decide

theorem test_decode_led :
    decodeWord 0xA1000080 = .instr (.pwmSetduty 4 128) ∧
      decodeWord 0xA4000000 = .instr (.pwmStart 0) ∧
      decodeWord 0xA9400000 = .instr (.pwmStop 5) ∧
      decodeWord 0xAD0000C8 = .instr (.ledSetlevel 4 200) ∧
      decodeWord 0xC0000000 = .instr .stlFrameclr ∧
      decodeWord 0xC4000001 = .instr (.stlAlarmleds true false) ∧
      decodeWord 0xC8000001 = .instr (.stlFlash .green) ∧
      decodeWord 0xE0000000 = .instr .stripToggle ∧
      decodeWord 0xE4000001 = .instr (.stripNudge .brightness true) := by decide

/-- The highest index of each table, and every field at its highest value. -/
theorem test_decode_top_of_range :
    decodeWord 0x0681FFFF = .instr (.dspWrgrid 5 0x3FFF true true true) ∧
      decodeWord 0x241100FF = .instr (.rtcWrreg .temperatureLsb 0xFF) ∧
      decodeWord 0x4C060001 = .instr (.rtcSetflag .a2f true) ∧
      decodeWord 0x83FD7EFB = .instr (.timeAddh 23 59 59 255) ∧
      decodeWord 0xA140FFFF = .instr (.pwmSetduty 5 0xFFFF) ∧
      decodeWord 0x3BFFFFFF = .instr (.rtcSetdate 31 15 0x1FFFF) ∧
      decodeWord 0xE4000003 = .instr (.stripNudge .colour true) := by decide

theorem test_encode_spec_words :
    encode (.dspWrgrid 2 0x1234 true false false) = 0x05005234 ∧
      encode (.rtcSetdate 31 2 2023) = 0x3BE407E7 ∧
      encode (.timeAddh 5 15 45 255) = 0x83FC53ED ∧
      encode (.recSetmode .both) = 0x60000003 ∧
      encode (.recSetclock 23 59 59) = 0x68173B3B ∧
      encode (.stripNudge .colour false) = 0xE4000002 := by decide

theorem test_refused_opcodes :
    decodeWord 0x00000000 = .reserved .unknownOpcode ∧
      decodeWord 0xFC000000 = .reserved .unknownOpcode ∧
      decodeWord 0x18000000 = .reserved .unknownOpcode := by decide

theorem test_refused_reserved_bits :
    decodeWord 0x04020000 = .reserved .reservedBit ∧
      decodeWord 0x08000080 = .reserved .reservedBit ∧
      decodeWord 0x0C000001 = .reserved .reservedBit ∧
      decodeWord 0x10000001 = .reserved .reservedBit ∧
      decodeWord 0x20010001 = .reserved .reservedBit ∧
      decodeWord 0x24000100 = .reserved .reservedBit ∧
      decodeWord 0x280D0002 = .reserved .reservedBit := by decide

theorem test_refused_reserved_bits_more :
    decodeWord 0x4C050002 = .reserved .reservedBit ∧
      decodeWord 0x69000000 = .reserved .reservedBit ∧
      decodeWord 0x80020000 = .reserved .reservedBit ∧
      decodeWord 0x94047800 = .reserved .reservedBit ∧
      decodeWord 0xA0010100 = .reserved .reservedBit ∧
      decodeWord 0xC4000004 = .reserved .reservedBit ∧
      decodeWord 0xE4000004 = .reserved .reservedBit := by decide

theorem test_refused_indexes :
    decodeWord 0x07000000 = .reserved .indexOutOfTable ∧
      decodeWord 0x20120000 = .reserved .indexOutOfTable ∧
      decodeWord 0x4C070000 = .reserved .indexOutOfTable ∧
      decodeWord 0x78000003 = .reserved .indexOutOfTable ∧
      decodeWord 0xA5800000 = .reserved .indexOutOfTable ∧
      decodeWord 0xA180012C = .reserved .indexOutOfTable ∧
      decodeWord 0xC8000000 = .reserved .indexOutOfTable ∧
      decodeWord 0xC8000003 = .reserved .indexOutOfTable := by decide

theorem test_refused_times :
    decodeWord 0x80058000 = .reserved .illegalTime ∧
      decodeWord 0x84040F00 = .reserved .illegalTime ∧
      decodeWord 0x8001F000 = .reserved .illegalTime := by decide

/-- Bytes are little-endian (R47), and fewer or more than one word's are refused. -/
theorem test_bytes :
    decodeBytes [0x32, 0x00, 0x00, 0x08] = .instr (.dspSetbright 50) ∧
      encodeBytes (.recSetal1 13 30 0) = [0x00, 0x1E, 0x0D, 0x6C] ∧
      decodeBytes [0x32, 0x00, 0x00] = .reserved .notOneWord ∧
      decodeTableWord 32 0xA1000080 = some (.pwmSetduty 4 128) := by decide

/-- Ill-formed terms, one for each field the check looks at, and the greatest legal Time. -/
theorem test_wellformed_smoke :
    (Instr.timeAddh 24 0 0 1).wellFormed = false ∧ (Instr.timeAddm 0 60 0 1).wellFormed = false ∧
      (Instr.timeSubh 0 0 60 1).wellFormed = false ∧ (Instr.timeSubm 31 0 0 1).wellFormed = false ∧
      (Instr.timeAdds 0 63 0 1).wellFormed = false ∧ (Instr.timeNorm5 0 0 63).wellFormed = false ∧
      (Instr.timeNorm5 23 59 59).wellFormed = true := by decide

theorem test_assembler :
    Instr.asm (.dspWrgrid 2 0x1234 true false false) = "DSP.WRGRID 2, 4660, 1, 0, 0" ∧
      Instr.asm (.rtcUpdreg .control 0 true) = "RTC.UPDREG Control, 0, 1" ∧
      Instr.asm (.stripNudge .colour false) = "STRIP.NUDGE C, -" := by decide

/-- The pseudo-instructions of R75. -/
theorem test_pseudo_instructions :
    expandBlankAll.map encode =
        [0x04000000, 0x04800000, 0x05000000, 0x05800000, 0x06000000, 0x06800000] ∧
      expandCancel.map encode = [0x64000000] ∧
      expandClrFlags.map encode = [0x4C050000, 0x4C060000] := by decide

/-! ### The display commands (R85 to R101; section 3.3) -/

/-- The plain state with another brightness compare value. -/
def withBright (n : Nat) : State := plain.withDisp { plain.disp with brightCmp := n }

/-- The plain state with the display switched on. -/
def lit : State := after .dspEnable plain

/-- The grid of program P1 (section 4.1). -/
def p1Grid : Six (Option GridEntry) :=
  ⟨some ⟨0x0006, false, false, false⟩, some ⟨0x00DB, true, false, false⟩, some ⟨0x00CF, false, false, false⟩,
    some ⟨0x00E6, true, false, false⟩, some ⟨0x00ED, false, false, false⟩, some ⟨0x00FD, false, false, false⟩⟩

/-- The display on, with the grid of P1 and digit `k` selected last. -/
def showing (k : Fin 6) : State := lit.withDisp { lit.disp with grid := p1Grid, muxIdx := k }

/-- Phase 1 leaves the entry as it was, and phase 2, the Host's next turn, writes it (R39). -/
theorem test_wrgrid_two_phase :
    (after (.dspWrgrid 1 0x00DB true false false) plain).disp.grid.get 1 = none ∧
      (afterTurn .host (after (.dspWrgrid 1 0x00DB true false false) plain)).disp.grid.get 1 =
        some ⟨0x00DB, true, false, false⟩ := by decide +kernel

theorem test_setbright_mapping :
    (after (.dspSetbright 1) plain).disp.brightCmp = 10 ∧ (after (.dspSetbright 2) plain).disp.brightCmp = 20 ∧
      (after (.dspSetbright 50) plain).disp.brightCmp = 500 ∧
      (after (.dspSetbright 99) plain).disp.brightCmp = 990 ∧
      (after (.dspSetbright 100) plain).disp.brightCmp = 1000 ∧
      (after (.dspSetbright 0) (withBright 500)).disp.brightCmp = 500 ∧
      (after (.dspSetbright 101) (withBright 500)).disp.brightCmp = 500 ∧
      (after (.dspSetbright 127) (withBright 500)).disp.brightCmp = 500 := by decide +kernel

/-- A falling range rounds toward its first end: 51 and not 50 at 50 percent. -/
theorem test_setbright_falling :
    [1, 2, 50, 99, 100].map (brightValue { benchParams with cmpAt1 := 100, cmpAt100 := 0 }) =
      [100, 99, 51, 2, 0] := by decide +kernel

theorem test_getcmp :
    outcomeOf .dspGetcmp plain = .result (.number 0) ∧
      outcomeOf .dspGetcmp (withBright 500) = .result (.number 500) := by decide +kernel

theorem test_enable_disable :
    lit.disp.dispEnabled = true ∧ lit.disp.boostEn = true ∧ lit.disp.heaterEn = true ∧
      lit.disp.digEn = Six.fill false ∧ (after .dspEnable lit).disp = lit.disp ∧
      (after .dspDisable (afterTurn .muxIsr (showing 4))).disp =
        { (showing 5).disp with
          srStage := 0x000FD, srLatch := 0x000FD, srData := true, boostEn := false, heaterEn := false,
          dispEnabled := false } := by decide +kernel

/-! ### The multiplex step (section 2.5, section 3.3) -/

theorem test_mux_rows :
    ((afterTurn .muxIsr (showing 5)).disp.muxIdx = 0 ∧ (afterTurn .muxIsr (showing 5)).disp.srLatch = 0x00006 ∧
        (afterTurn .muxIsr (showing 5)).disp.digEn = ⟨true, false, false, false, false, false⟩) ∧
      (afterTurn .muxIsr (showing 0)).disp.muxIdx = 1 ∧ (afterTurn .muxIsr (showing 0)).disp.srLatch = 0x040DB ∧
      (afterTurn .muxIsr (showing 0)).disp.digEn = ⟨false, true, false, false, false, false⟩ := by
  decide +kernel

/-- The 60 pin events of one step: 6 blanking writes, 17 bits of three events, the strobe, the enable. -/
theorem test_mux_trace :
    (afterTurn .muxIsr (showing 0)).out.pins.length = lit.out.pins.length + 60 ∧
      (((afterTurn .muxIsr (showing 0)).out.pins.filter fun e => e.pin == .srData).map (·.level)) =
        [false, false, true, false, false, false, false, false, false, true, true, false, true, true, false,
          true, true] ∧
      (afterTurn .muxIsr (showing 0)).out.pins.getLast? = some ⟨.digEn 1, true⟩ := by decide +kernel

theorem test_gate_and_lit_segments :
    (withBright 500).visibleCount = 500 ∧ (withBright 0).visibleCount = 0 ∧
      ((List.range 17).filter fun j =>
          ((afterTurn .muxIsr (showing 0)).withDisp
            { (afterTurn .muxIsr (showing 0)).disp with brightCmp := 500 }).lit 1 (Fin.ofNat 17 j) 100) =
        [0, 1, 3, 4, 6, 7, 14] := by decide +kernel

/-! ### The RTC commands (R114 to R124; section 3.4) -/

theorem test_gettime :
    outcomeOf .rtcGettime (chip [(0, 0x56), (1, 0x34), (2, 0x12)] []) =
        .result (.optTime (some ⟨12, 34, 56⟩)) ∧
      outcomeOf .rtcGettime (chip [(2, 0x52)] []) = .result (.optTime (some ⟨12, 0, 0⟩)) ∧
      outcomeOf .rtcGettime (chip [(0, 0xD9)] []) = .result (.optTime (some ⟨0, 0, 59⟩)) ∧
      outcomeOf .rtcGettime (chip [] [false]) = .result (.optTime none) := by decide +kernel

theorem test_gettime_bad_data :
    outcomeOf .rtcGettime (chip [(1, 0x5A)] []) = .fault ⟨.host, .minutes, 0x5A⟩ ∧
      outcomeOf .rtcGettime (chip [(0, 0x60)] []) = .fault ⟨.host, .seconds, 0x60⟩ ∧
      outcomeOf .rtcGettime (chip [(2, 0x24)] []) = .fault ⟨.host, .hour, 0x24⟩ ∧
      (after .rtcGettime (chip [(2, 0x24)] [])).out.faults = [⟨.host, .hour, 0x24⟩] := by decide +kernel

theorem test_getdate :
    outcomeOf .rtcGetdate (chip [(4, 0x31), (5, 0x92), (6, 0x99)] []) =
        .result (.optDate (some ⟨31, 12, 2099⟩)) ∧
      outcomeOf .rtcGetdate (chip [(5, 0x01), (6, 0x24)] []) = .fault ⟨.host, .date, 0x00⟩ := by
  decide +kernel

theorem test_getalarms :
    outcomeOf .rtcGetal1 (chip [(8, 0x30), (9, 0x93)] []) = .result (.optTime (some ⟨13, 30, 0⟩)) ∧
      outcomeOf .rtcGetal2 (chip [(8, 0x30), (9, 0x93), (12, 0x86)] []) =
        .result (.optTime (some ⟨6, 0, 0⟩)) := by decide +kernel

theorem test_rdreg :
    outcomeOf (.rtcRdreg .minutes) (chip [(1, 0x5A)] []) = .result (.optByte (some 0x5A)) ∧
      outcomeOf (.rtcRdreg .status) (chip [] [false]) = .result (.optByte none) := by decide +kernel

theorem test_wrreg :
    bytesAfter (.rtcWrreg .agingOffset 5) (chip [] []) = some [(15, 5)] ∧
      bytesAfter (.rtcWrreg .seconds 0) (chip [(0, 0x5A)] []) = some [] ∧
      bytesAfter (.rtcWrreg .seconds 0x5A) (chip [] [false]) = some [] := by decide +kernel

theorem test_settime :
    bytesAfter (.rtcSettime 23 59 59) (chip [] []) = some [(0, 0x59), (1, 0x59), (2, 0x23)] ∧
      outcomeOf (.rtcSettime 7 5 0) (chip [] [false]) = .result (.bool false) ∧
      (after (.rtcSettime 24 0 0) (chip [] [])).out.bus = [] := by decide +kernel

theorem test_setdate :
    bytesAfter (.rtcSetdate 29 2 2024) (chip [] []) = some [(4, 0x29), (5, 0x02), (6, 0x24)] ∧
      bytesAfter (.rtcSetdate 31 2 2023) (chip [] []) = some [(4, 0x31), (5, 0x02), (6, 0x23)] ∧
      (after (.rtcSetdate 0 1 2024) (chip [] [])).out.bus = [] ∧
      (after (.rtcSetdate 1 1 2100) (chip [] [])).out.bus = [] := by decide +kernel

theorem test_setalarms :
    bytesAfter (.rtcSetal1 13 30 0) (chip [] []) = some [(8, 0x30), (9, 0x93)] ∧
      bytesAfter (.rtcSetal1 13 30 0) (chip [] [false]) = some [] ∧
      outcomeOf (.rtcSetal1 13 30 0) (chip [] [false]) = .result (.bool false) ∧
      bytesAfter (.rtcSetal2 6 0 0) (chip [] []) = some [(12, 0x86)] := by decide +kernel

theorem test_updreg :
    bytesAfter (.rtcUpdreg .control 0 true) (chip [(13, 0x1C)] []) = some [(13, 0x1D)] ∧
      bytesAfter (.rtcUpdreg .status 0 false) (chip [(14, 0x03)] []) = some [(14, 0x02)] := by decide +kernel

/-- The answer to the write-back is ignored (R107). -/
theorem test_updreg_general_oracle :
    outcomeOf (.rtcUpdreg .control 0 true)
        (plain.withInp { plain.inp with reads := [some ⟨0x1C, 0, 0⟩], acks := [false] }) =
      .result (.bool true) := by decide +kernel

theorem test_setflag :
    bytesAfter (.rtcSetflag .sqw false) (chip [(13, 0x18)] []) = some [(13, 0x1C)] ∧
      bytesAfter (.rtcSetflag .en32k false) (chip [(14, 0x08)] []) = some [] ∧
      bytesAfter (.rtcSetflag .a2f false) (chip [(14, 0x02)] []) = some [] ∧
      outcomeOf (.rtcSetflag .a1f false) (chip [(14, 0x03)] [false]) = .result (.bool false) := by
  decide +kernel

theorem test_selftest :
    outcomeOf .rtcSelftest (chip [] []) = .result (.bool true) ∧
      outcomeOf .rtcSelftest (chip [] [false]) = .result (.bool false) := by decide +kernel

/-! ### The reconciliation commands (R143 to R149; section 3.5) -/

/-- A steady state as at the end of P1, with the chip holding `m` and `script`. -/
def steady (m : Memory) (script : List Bool) : State :=
  (chip m script).withRtc
    { plain.rtc with
      recPc := .sRead, clockTime := ⟨12, 34, 56⟩, alarmTime1 := ⟨7, 30, 0⟩, alarmTime2 := ⟨6, 0, 0⟩,
      online := true, ready := true }

theorem test_setmode_setstate :
    (after (.recSetmode .alarm1) plain).rtc.alarmMode = .alarm1 ∧
      (after (.recSetstate .snooze) plain).rtc.alarmState = .snooze ∧
      (after (.recSetstate .snooze) plain).rtc.alarmMode = .both := by decide +kernel

/-- The cache takes the time in phase 2 although the bus failed (R145). -/
theorem test_setclock :
    outcomeOf (.recSetclock 7 0 0) (steady [] [false]) = .result (.bool false) ∧
      (after (.recSetclock 7 0 0) (steady [] [false])).rtc.clockTime = ⟨12, 34, 56⟩ ∧
      (afterTurn .host (after (.recSetclock 7 0 0) (steady [] [false]))).rtc.clockTime = ⟨7, 0, 0⟩ ∧
      (after (.recSetclock 24 0 0) (steady [] [])).rtc = (steady [] []).rtc := by decide +kernel

theorem test_cached_alarm_setters :
    bytesAfter (.recSetal1 13 30 0) (steady [] []) = some [(8, 0x30), (9, 0x93)] ∧
      (after (.recSetal1 13 30 0) (steady [] [])).rtc.al1Pend = ⟨some ⟨13, 30, 0⟩, none⟩ ∧
      bytesAfter (.recSetal2 6 0 0) (steady [] []) = some [(12, 0x86)] ∧
      (after (.recSetal2 6 0 0) (steady [] [])).rtc.al2Pend = ⟨some ⟨6, 0, 0⟩, none⟩ := by decide +kernel

theorem test_isonline_and_read :
    outcomeOf .recIsonline plain = .result (.bit false) ∧
      outcomeOf .recIsonline (steady [] []) = .result (.bit true) ∧
      outcomeOf (.recRead .al1) (steady [] []) = .result (.time ⟨7, 30, 0⟩) ∧
      outcomeOf (.recRead .al2) (steady [] []) = .result (.time ⟨6, 0, 0⟩) ∧
      outcomeOf (.recRead .clock) plain = .result (.time ⟨0, 0, 0⟩) := by decide +kernel

theorem test_status :
    outcomeOf .recStatus plain = .result (.status 0x03) ∧
      outcomeOf .recStatus (steady [] []) = .result (.status 0x73) ∧
      outcomeOf .recStatus
          ((steady [] []).withRtc
            { (steady [] []).rtc with alarmMode := .alarm1, alarmState := .sunrise, trigLatch := true }) =
        .result (.status 0xF5) := by decide +kernel

/-! ### The Time commands (R78 to R83; section 3.2) -/

theorem test_addh :
    outcomeOf (.timeAddh 23 30 0 1) plain = .result (.time ⟨0, 30, 0⟩) ∧
      outcomeOf (.timeAddh 13 30 0 24) plain = .result (.time ⟨13, 30, 0⟩) ∧
      outcomeOf (.timeAddh 5 15 45 255) plain = .result (.time ⟨20, 15, 45⟩) := by decide +kernel

theorem test_addm :
    outcomeOf (.timeAddm 23 59 0 255) plain = .result (.time ⟨4, 14, 0⟩) ∧
      outcomeOf (.timeAddm 0 0 0 60) plain = .result (.time ⟨1, 0, 0⟩) ∧
      addMinutes false ⟨23, 59, 0⟩ 255 = ⟨23, 14, 0⟩ := by decide +kernel

theorem test_subh :
    outcomeOf (.timeSubh 0 0 0 25) plain = .result (.time ⟨23, 0, 0⟩) ∧
      outcomeOf (.timeSubh 1 0 0 255) plain = .result (.time ⟨10, 0, 0⟩) := by decide +kernel

theorem test_subm :
    outcomeOf (.timeSubm 0 0 30 1) plain = .result (.time ⟨23, 59, 30⟩) ∧
      outcomeOf (.timeSubm 0 0 0 255) plain = .result (.time ⟨19, 45, 0⟩) ∧
      subMinutes false ⟨0, 0, 0⟩ 255 = ⟨0, 45, 0⟩ := by decide +kernel

theorem test_adds :
    outcomeOf (.timeAdds 23 59 59 1) plain = .result (.time ⟨0, 0, 0⟩) ∧
      outcomeOf (.timeAdds 0 0 0 255) plain = .result (.time ⟨0, 4, 15⟩) := by decide +kernel

theorem test_norm5 :
    outcomeOf (.timeNorm5 7 32 0) plain = .result (.time ⟨7, 30, 0⟩) ∧
      outcomeOf (.timeNorm5 7 59 0) plain = .result (.time ⟨7, 55, 0⟩) ∧
      outcomeOf (.timeNorm5 7 4 0) plain = .result (.time ⟨7, 0, 0⟩) := by decide +kernel

/-! ### The LED commands (R152 to R165; section 3.6) -/

/-- The plain state with a strip. -/
def strip (on : Bool) (b cct : Nat) : State :=
  plain.withLed { plain.led with stripOn := on, stripB := b, stripCct := cct }

/-- What a strip command leaves: the strip and the targets of channels 4 and 5. -/
def stripAfter (i : Instr) (s : State) : Bool × Nat × Nat × Nat × Nat :=
  ((after i s).led.stripOn, (after i s).led.stripB, (after i s).led.stripCct,
    ((after i s).led.chan.get 4).target, ((after i s).led.chan.get 5).target)

theorem test_setduty :
    (after (.pwmSetduty 4 128) plain).led.chan.get 4 = ⟨0, 0, 128, false⟩ ∧
      outcomeOf (.pwmSetduty 0 255) plain = .result .unit ∧
      outcomeOf (.pwmSetduty 0 256) plain = .refuse (.valueRange 0xA0000100) ∧
      (after (.pwmSetduty 0 256) plain).led = plain.led := by decide +kernel

theorem test_setlevel :
    (after (.ledSetlevel 4 200) plain).led.chan.get 4 = ⟨0, 200, 0, false⟩ ∧
      outcomeOf (.ledSetlevel 5 255) plain = .result .unit ∧
      outcomeOf (.ledSetlevel 5 256) plain = .refuse (.valueRange 0xAD400100) ∧
      (after (.ledSetlevel 5 256) plain).out.refused = true := by decide +kernel

theorem test_start_stop :
    (after (.pwmStart 5) plain).led.chan.get 5 = ⟨0, 0, 0, true⟩ ∧
      (after (.pwmStop 5) (after (.pwmStart 5) plain)).led = plain.led := by decide +kernel

theorem test_sequencer_commands :
    (after (.stlAlarmleds true false) plain).led.stlAl1 = true ∧
      (after (.stlAlarmleds true false) plain).led.stlAl2 = false ∧
      (after .stlFrameclr (after (.stlAlarmleds true true) plain)).led = plain.led ∧
      (after (.stlFlash .green) plain).led.flashCol = .green ∧
      (after (.stlFlash .red) plain).led.flashLeft = 3 := by decide +kernel

theorem test_strip_toggle :
    stripAfter .stripToggle (strip false 100 50) = (true, 100, 50, 50, 50) ∧
      stripAfter .stripToggle (strip true 100 50) = (false, 100, 50, 0, 0) := by decide +kernel

theorem test_strip_nudge_brightness :
    stripAfter (.stripNudge .brightness false) (strip true 100 33) = (true, 80, 33, 53, 26) ∧
      stripAfter (.stripNudge .brightness true) (strip true 190 50) = (true, 200, 50, 100, 100) ∧
      stripAfter (.stripNudge .brightness false) (strip true 10 50) = (true, 0, 50, 0, 0) ∧
      stripAfter (.stripNudge .brightness true) (strip false 100 50) = (false, 120, 50, 0, 0) := by
  decide +kernel

theorem test_strip_nudge_colour :
    stripAfter (.stripNudge .colour false) (strip true 100 0) = (true, 100, 0, 100, 0) ∧
      stripAfter (.stripNudge .colour true) (strip true 100 95) = (true, 100, 100, 0, 100) := by
  decide +kernel

/-! ### The LED tick (section 3.6) -/

/-- The plain state with channel 4 as given. -/
def channel4 (c : Channel) : State := plain.withLed { plain.led with chan := plain.led.chan.set 4 c }

/-- Rows 1, 6 and 7 of the ramp of channel 4 upward, a row downward, and no duty where nothing moves. -/
theorem test_tick_ramp :
    (afterTurn .ledTimer (channel4 ⟨0, 50, 0, true⟩)).led.chan.get 4 = ⟨8, 50, 0, true⟩ ∧
      (afterTurn .ledTimer (channel4 ⟨40, 50, 6, true⟩)).led.chan.get 4 = ⟨48, 50, 9, true⟩ ∧
      (afterTurn .ledTimer (channel4 ⟨48, 50, 9, false⟩)).led.chan.get 4 = ⟨50, 50, 9, false⟩ ∧
      (afterTurn .ledTimer (channel4 ⟨2, 0, 0, true⟩)).led.chan.get 4 = ⟨0, 0, 0, true⟩ ∧
      (afterTurn .ledTimer (channel4 ⟨50, 50, 200, true⟩)).led.chan.get 4 = ⟨50, 50, 200, true⟩ := by
  decide +kernel

/-- Offline the status LED is red; a flash comes first; online and with no flash both are dark. -/
theorem test_tick_status :
    (afterTurn .ledTimer plain).led.chan.get 0 = ⟨255, 255, 255, false⟩ ∧
      (afterTurn .ledTimer (after (.stlFlash .green) plain)).led.chan.get 0 = ⟨0, 0, 0, false⟩ ∧
      (afterTurn .ledTimer (after (.stlFlash .green) plain)).led.chan.get 1 = ⟨255, 255, 255, false⟩ ∧
      (afterTurn .ledTimer (after (.stlFlash .green) plain)).led.flashLeft = 2 ∧
      (afterTurn .ledTimer (steady [] [])).led.chan.get 0 = ⟨0, 0, 0, false⟩ := by decide +kernel

/-- A steady state at a clock second with an alarm active. -/
def ringing (sec : Fin 60) : State :=
  (steady [] []).withRtc { (steady [] []).rtc with clockTime := ⟨7, 0, sec⟩, alarmState := .sunrise }

theorem test_tick_alarm_leds :
    ((afterTurn .ledTimer (ringing 0)).led.chan.get 2).target = 255 ∧
      ((afterTurn .ledTimer (ringing 1)).led.chan.get 3).target = 0 ∧
      ((afterTurn .ledTimer (after (.stlAlarmleds true false) plain)).led.chan.get 2).target = 255 ∧
      ((afterTurn .ledTimer (after (.stlAlarmleds true false) plain)).led.chan.get 3).target = 0 := by
  decide +kernel

/-! ### The micro-program of `RecTask` (sections 3.5 and 4.1) -/

/-- The chip of program P1. -/
def p1Chip : Memory :=
  [(0, 0x56), (1, 0x34), (2, 0x12), (8, 0x32), (9, 0x07), (12, 0x06), (13, 0x1C), (14, 0x03)]

/-- The plain state with the chip of P1 and its script, and the micro-program at `pc`. -/
def atPc (pc : RecPc) (script : List Bool) : State :=
  (chip p1Chip script).withRtc { plain.rtc with recPc := pc }

theorem test_rec_init :
    (afterTurn .recTask (atPc .bA1f [])).rtc.recPc = .bA2f ∧
      (afterTurn .recTask (atPc .bA1f [])).inp.sim.map (fun c => Memory.read c.simReg 14) = some 0x02 ∧
      (afterTurn .recTask (atPc .bSqw [])).inp.sim = some ⟨p1Chip, []⟩ ∧
      (afterTurn .recTask (atPc .bA1f [false])).rtc.recPc = .bSqw := by decide +kernel

theorem test_rec_reads :
    (afterTurn .recTask (atPc .bRdt [])).rtc.tmpTime = some ⟨12, 34, 56⟩ ∧
      (afterTurn .recTask (atPc .bRda1 [])).rtc.tmpAl1 = some ⟨7, 32, 0⟩ ∧
      (afterTurn .recTask (atPc .bRda2 [])).rtc.tmpAl2 = some ⟨6, 0, 0⟩ := by decide +kernel

/-- Bad data in the bootstrap is recorded, and the step goes on as a failure (R134). -/
theorem test_rec_bad_data :
    (afterTurn .recTask ((chip [(1, 0x5A)] []).withRtc { plain.rtc with recPc := .bRdt })).out.faults =
        [⟨.recTask, .minutes, 0x5A⟩] ∧
      (afterTurn .recTask ((chip [(1, 0x5A)] []).withRtc { plain.rtc with recPc := .bRdt })).rtc.recPc =
        .bSqw := by decide +kernel

/-- The micro-program at `pc` with the three temporaries of P1, before the normalisation. -/
def fixing (pc : RecPc) : State :=
  (atPc pc []).withRtc
    { (atPc pc []).rtc with
      tmpTime := some ⟨12, 34, 56⟩, tmpAl1 := some ⟨7, 32, 0⟩, tmpAl2 := some ⟨6, 35, 0⟩ }

theorem test_rec_fix :
    (afterTurn .recTask (fixing .bFix1)).rtc.tmpAl1 = some ⟨7, 30, 0⟩ ∧
      (afterTurn .recTask (fixing .bFix1)).inp.sim.map
          (fun c => (Memory.read c.simReg 8, Memory.read c.simReg 9)) = some (0x30, 0x87) ∧
      (afterTurn .recTask (fixing .bFix2)).rtc.tmpAl2 = some ⟨6, 35, 0⟩ ∧
      (afterTurn .recTask (fixing .bFix2)).out.bus = [] := by decide +kernel

/-- `fixing` at `B_COMMIT` after phase 1. -/
def committing : State := afterTurn .recTask (fixing .bCommit)

theorem test_rec_commit :
    committing.rtc.clockPend = ⟨none, some ⟨12, 34, 56⟩⟩ ∧ committing.rtc.recPc = .bCommit ∧
      (afterTurn .recTask committing).rtc =
        { plain.rtc with
          recPc := .sRead, clockTime := ⟨12, 34, 56⟩, alarmTime1 := ⟨7, 32, 0⟩, alarmTime2 := ⟨6, 35, 0⟩,
          online := true, ready := true, tmpTime := some ⟨12, 34, 56⟩, tmpAl1 := some ⟨7, 32, 0⟩,
          tmpAl2 := some ⟨6, 35, 0⟩ } := by decide +kernel

/-- R184, from outside the states R140 leaves: with no temporary written the step is taken, on a free value. -/
theorem test_rec_commit_unwritten :
    (afterTurn .recTask (atPc .bCommit [])).rtc.clockPend.recTask.isSome = true ∧
      (afterTurn .recTask (atPc .bCommit [])).inp.draws = plain.inp.draws + 3 := by decide +kernel

theorem test_rec_poll :
    (afterTurn .recTask (steady [(0, 0x57), (1, 0x34), (2, 0x12)] [])).rtc.clockPend =
        ⟨none, some ⟨12, 34, 57⟩⟩ ∧
      (afterTurn .recTask (steady [] [false])).rtc.clockPend = ⟨none, some ⟨12, 34, 57⟩⟩ ∧
      (afterTurn .recTask (steady [] [false])).rtc.online = false ∧
      (afterTurn .recTask (steady [(1, 0x5A)] [])).out.faults = [⟨.recTask, .minutes, 0x5A⟩] ∧
      (afterTurn .recTask (steady [(1, 0x5A)] [])).rtc.online = false := by decide +kernel

/-- The steady state at `S_EVAL`. -/
def evaluating (mode : AlarmMode) (clock a1 a2 : Time) (st : AlarmState) (latch : Bool) : State :=
  (steady [] []).withRtc
    { (steady [] []).rtc with
      recPc := .sEval, alarmMode := mode, clockTime := clock, alarmTime1 := a1, alarmTime2 := a2,
      alarmState := st, trigLatch := latch }

/-- The latch and the alarm state one step on. -/
def evaluated (s : State) : Bool × AlarmState :=
  ((afterTurn .recTask s).rtc.trigLatch, (afterTurn .recTask s).rtc.alarmState)

theorem test_rec_eval :
    evaluated (evaluating .off ⟨7, 0, 0⟩ ⟨7, 0, 0⟩ ⟨7, 0, 0⟩ .off false) = (false, .off) ∧
      evaluated (evaluating .alarm2 ⟨7, 0, 0⟩ ⟨7, 0, 0⟩ ⟨6, 0, 0⟩ .off false) = (false, .off) ∧
      evaluated (evaluating .both ⟨7, 0, 0⟩ ⟨7, 0, 0⟩ ⟨7, 0, 0⟩ .off false) = (true, .sunrise) ∧
      evaluated (evaluating .both ⟨7, 1, 0⟩ ⟨7, 0, 0⟩ ⟨7, 1, 0⟩ .sunrise true) = (true, .sunrise) ∧
      evaluated (evaluating .alarm1 ⟨7, 0, 30⟩ ⟨7, 0, 0⟩ ⟨0, 0, 0⟩ .snooze false) = (true, .snooze) ∧
      evaluated (evaluating .alarm1 ⟨7, 0, 59⟩ ⟨7, 0, 0⟩ ⟨0, 0, 0⟩ .off true) = (true, .off) ∧
      evaluated (evaluating .alarm1 ⟨7, 1, 0⟩ ⟨7, 0, 0⟩ ⟨0, 0, 0⟩ .off true) = (false, .off) := by
  decide +kernel

/-! ### The host's question: the first instruction after reset -/

/-- The very next step after reset runs the word placed, whatever the free values are. -/
theorem test_step_after_reset :
    step (State.reset.withFetchWord 32 0x60000001) = exec (.recSetmode .alarm1) State.reset := by rfl

/-! ### Witnesses: for each statement with hypotheses, a state and operands that meet them all together -/

/-- `s` with a word presented. -/
def presents (w : Command) (s : State) : State := s.withInp { s.inp with sched := [.host], words := [w] }

theorem witness_DecodeOfEncode :
    (Instr.timeAddh 23 59 59 255).wellFormed = true ∧ (Instr.timeNorm5 0 0 0).wellFormed = true ∧
      Instr.dspEnable.wellFormed = true := by decide

theorem witness_EncodeOfDecode : decodeWord 0x83FD7EFB = .instr (.timeAddh 23 59 59 255) := by decide

/-- One word for each clause, in the order of the checks. -/
theorem witness_ReservedWordsAreRefused :
    bits 0xFC000000 31 26 ∈ unassignedOpcodes ∧
      (bits 0x08000080 31 26 ∉ unassignedOpcodes ∧
        ¬ ∀ f ∈ zeroFields (bits 0x08000080 31 26), bits 0x08000080 f.1 f.2 = 0) ∧
      ((∀ f ∈ zeroFields (bits 0x07000000 31 26), bits 0x07000000 f.1 f.2 = 0) ∧ ¬ indexInTable 0x07000000) ∧
      ((∀ f ∈ zeroFields (bits 0x80058000 31 26), bits 0x80058000 f.1 f.2 = 0) ∧ indexInTable 0x80058000 ∧
        ¬ timeOperandLegal 0x80058000) ∧
      ((∀ f ∈ zeroFields (bits 0x80057EFB 31 26), bits 0x80057EFB f.1 f.2 = 0) ∧ indexInTable 0x80057EFB ∧
        timeOperandLegal 0x80057EFB) ∧
      decodeWord 0x80058000 = .reserved .illegalTime := by
  refine ⟨?_, ⟨?_, ?_⟩, ⟨?_, ?_⟩, ⟨?_, ?_, ?_⟩, ⟨?_, ?_, ?_⟩, ?_⟩ <;>
    (try unfold indexInTable) <;> (try unfold timeOperandLegal) <;> decide +kernel

theorem witness_StepRunsTheDecodedWord :
    (presents 0x08000032 plain).inp.sched = .host :: [] ∧
      (presents 0x08000032 plain).inp.words = 0x08000032 :: [] ∧
      (presents 0x08000032 plain).hostPending = false ∧
      decodeWord 0x08000032 = .instr (.dspSetbright 50) := by decide +kernel

/-- Both with nothing of the Host pending and with a write pending. -/
theorem witness_StepAfterWithFetchWord :
    decodeTableWord 32 0x08000032 = some (.dspSetbright 50) ∧ plain.hostPending = false ∧
      (plain.pendGrid 5 ⟨0, false, false, false⟩).hostPending = true := by decide +kernel

theorem witness_StepIsTheNextAgentsTurn :
    (turns [.muxIsr, .host] plain).inp.sched = .muxIsr :: [.host] ∧
      (turns [.muxIsr, .host] plain).disp.dispEnabled = false := by decide +kernel

/-- One pending entry, and one pending time in each cache. -/
theorem witness_HostPhaseTwo :
    (turns [.host] (plain.pendGrid 0 ⟨1, true, false, true⟩)).inp.sched = .host :: [] ∧
      (turns [.host] (plain.pendGrid 0 ⟨1, true, false, true⟩)).hostPending = true ∧
      (turns [.host] (plain.pendCache .host .al2 ⟨23, 59, 59⟩)).hostPending = true := by decide +kernel

theorem witness_WrgridIsTwoPhase : plain.hostPending = false ∧ (0 : Fin 6) ≠ 5 := by decide +kernel

/-- No write pending, one pending to a written entry, one pending to an unwritten one. -/
theorem witness_GridReadMayTear :
    plain.disp.gridPend.get 5 = none ∧
      ((showing 0).pendGrid 0 ⟨0x00DB, true, false, false⟩).disp.gridPend.get 0 =
        some ⟨0x00DB, true, false, false⟩ ∧
      ((showing 0).pendGrid 0 ⟨0x00DB, true, false, false⟩).disp.grid.get 0 =
        some ⟨0x0006, false, false, false⟩ ∧
      (plain.pendGrid 0 ⟨0x00DB, true, false, false⟩).disp.gridPend.get 0 =
        some ⟨0x00DB, true, false, false⟩ := by decide +kernel

theorem witness_ShiftBitShiftsIn : plain.cfg.shiftOrder = .msbFirst ∧ 0 < 16 ∧ 15 < 16 := by decide +kernel

/-- With a written digit next, with an unwritten one next, and with a write pending to a written one next. -/
theorem witness_MuxStepResult :
    ((turns [.muxIsr] (showing 5)).inp.sched = .muxIsr :: [] ∧ (showing 5).disp.dispEnabled = true ∧
        (showing 5).cfg.shiftOrder = .msbFirst ∧
        (showing 5).disp.grid.get 0 = some ⟨0x0006, false, false, false⟩ ∧
        (showing 5).disp.gridPend.get 0 = none) ∧
      ((turns [.muxIsr] lit).inp.sched = .muxIsr :: [] ∧ lit.disp.dispEnabled = true ∧
        lit.cfg.shiftOrder = .msbFirst) ∧
      (after (.dspWrgrid 0 0x3FFF true true true) (showing 5)).disp.dispEnabled = true ∧
      (after (.dspWrgrid 0 0x3FFF true true true) (showing 5)).cfg.shiftOrder = .msbFirst ∧
      (after (.dspWrgrid 0 0x3FFF true true true) (showing 5)).disp.grid.get 0 =
        some ⟨0x0006, false, false, false⟩ ∧
      (after (.dspWrgrid 0 0x3FFF true true true) (showing 5)).disp.gridPend.get 0 =
        some ⟨0x3FFF, true, true, true⟩ := by decide +kernel

theorem witness_SixStepsVisitEveryDigit : lit.disp.dispEnabled = true := by decide +kernel

/-- The invariant of the display in the state after a multiplex step, with a segment lit. -/
theorem witness_AtMostOneDigitLit :
    ((afterTurn .muxIsr (showing 0)).withDisp
        { (afterTurn .muxIsr (showing 0)).disp with brightCmp := 500 }).DisplayInv ∧
      ((afterTurn .muxIsr (showing 0)).withDisp
        { (afterTurn .muxIsr (showing 0)).disp with brightCmp := 500 }).lit 1 0 0 = true := by
  refine ⟨⟨?_, ?_, ?_, ?_, ?_, ?_, ?_⟩, ?_⟩ <;> decide +kernel

theorem witness_GateVisibleFraction :
    plain.cfg.gatePolarity = .visibleBelow ∧
      ({ plain with cfg := { benchParams with gatePolarity := .visibleAtOrAbove } } : State).cfg.gatePolarity =
        .visibleAtOrAbove := by decide +kernel

/-- The ends of the range, and the values beside them. -/
theorem witness_SetbrightAndGetcmp :
    (0 : BitVec 7).toNat < 1 ∧ 100 < (101 : BitVec 7).toNat ∧ 100 < (127 : BitVec 7).toNat ∧
      1 ≤ (1 : BitVec 7).toNat ∧ (1 : BitVec 7).toNat = 1 ∧ (100 : BitVec 7).toNat ≤ 100 ∧
      (100 : BitVec 7).toNat = 100 := by decide

/-- The ends of the ranges of R11 and R54. -/
theorem witness_RegisterByteFormats :
    0 ≤ 99 ∧ 99 ≤ 99 ∧ (0 ≤ 0 ∧ 0 ≤ 59) ∧ (0 ≤ 59 ∧ 59 ≤ 59) ∧ (1 ≤ 31 ∧ 31 ≤ 31) ∧ (1 ≤ 12 ∧ 12 ≤ 12) ∧
      (2000 ≤ 2000 ∧ 2000 ≤ 2099) ∧ (2000 ≤ 2099 ∧ 2099 ≤ 2099) ∧
      bcdValid 0x99 = true ∧ bcdValid 0x9A = false ∧ bcdValid 0xA0 = false := by decide

/-- Each getter with its registers. -/
theorem witness_TimeGetters :
    (Instr.rtcGetal2, Regs3.mk .alarm2Seconds .alarm2Minutes .alarm2Hours) ∈
      [(Instr.rtcGettime, Regs3.mk .seconds .minutes .hour),
        (.rtcGetal1, ⟨.alarm1Seconds, .alarm1Minutes, .alarm1Hours⟩),
        (.rtcGetal2, ⟨.alarm2Seconds, .alarm2Minutes, .alarm2Hours⟩)] := by decide

/-- The ends of the setters' ranges, inside and outside. -/
theorem witness_TimeAndDateSetters :
    ((23 : BitVec 8).toNat < 24 ∧ (59 : BitVec 8).toNat < 60) ∧ ¬ (24 : BitVec 8).toNat < 24 ∧
      ¬ (60 : BitVec 8).toNat < 60 ∧
      (1 ≤ (31 : BitVec 5).toNat ∧ 1 ≤ (12 : BitVec 4).toNat ∧ (12 : BitVec 4).toNat ≤ 12 ∧
        2000 ≤ (2099 : BitVec 17).toNat ∧ (2099 : BitVec 17).toNat ≤ 2099) ∧
      ¬ 1 ≤ (0 : BitVec 5).toNat ∧ ¬ (13 : BitVec 4).toNat ≤ 12 ∧ ¬ 2000 ≤ (1999 : BitVec 17).toNat ∧
      ¬ (2100 : BitVec 17).toNat ≤ 2099 := by decide

theorem witness_AlarmSetters :
    (Instr.rtcSetal2 23 59 59, alarmRegs .two, plain.cfg.alarmMask2) ∈
      [(Instr.rtcSetal1 23 59 59, alarmRegs .one, plain.cfg.alarmMask1),
        (.rtcSetal2 23 59 59, alarmRegs .two, plain.cfg.alarmMask2)] := by decide +kernel

/-- The simulator with bytes, once answering and once failing, and operands at the ends of their ranges. -/
theorem witness_SimRtcStores :
    ((chip p1Chip []).inp.sim = some ⟨p1Chip, []⟩ ∧ Memory.wf p1Chip = true) ∧
      (chip p1Chip [false]).inp.sim = some ⟨p1Chip, [false]⟩ ∧
      (23 : BitVec 8).toNat < 24 ∧ (59 : BitVec 8).toNat < 60 ∧ (0 : BitVec 8).toNat < 24 ∧
      validDate 31 12 2099 = true ∧ validDate 1 1 2000 = true := by decide +kernel

theorem witness_SimRtcBitStores :
    (chip p1Chip []).inp.sim = some ⟨p1Chip, []⟩ ∧ (chip p1Chip [false]).inp.sim = some ⟨p1Chip, [false]⟩ ∧
      Memory.wf p1Chip = true ∧ (23 : BitVec 8).toNat < 24 ∧ (59 : BitVec 8).toNat < 60 ∧
      (0 : BitVec 8).toNat < 24 := by decide +kernel

theorem witness_SetAlarmThenGetAlarm :
    (chip p1Chip []).inp.sim = some ⟨p1Chip, []⟩ ∧ Memory.wf p1Chip = true ∧ benchParams.legal = true ∧
      benchParams.masks.asec = 0x7F ∧ benchParams.masks.amin = 0x7F ∧ benchParams.masks.ahour = 0x3F ∧
      (benchParams.maskPlace .one).bit = 7 ∧ (benchParams.maskPlace .two).bit = 7 ∧
      (23 : BitVec 8).toNat < 24 ∧ (59 : BitVec 8).toNat < 60 := by decide +kernel

/-- The ends of the operands of `REC.SETCLOCK`, inside and outside. -/
theorem witness_SetclockWritesChipAndCache :
    ((23 : BitVec 8).toNat < 24 ∧ (59 : BitVec 8).toNat < 60 ∧ (59 : BitVec 8).toNat < 60) ∧
      ¬ ((24 : BitVec 8).toNat < 24 ∧ (0 : BitVec 8).toNat < 60 ∧ (0 : BitVec 8).toNat < 60) := by decide

/-- The ends of the operands of `REC.SETAL1` and `REC.SETAL2`, inside and outside. -/
theorem witness_CachedAlarmSetters :
    ((23 : BitVec 8).toNat < 24 ∧ (59 : BitVec 8).toNat < 60 ∧ (59 : BitVec 8).toNat < 60) ∧
      ¬ ((0 : BitVec 8).toNat < 24 ∧ (60 : BitVec 8).toNat < 60 ∧ (0 : BitVec 8).toNat < 60) := by decide

/-- A cache with no write of `RecTask` pending, and one with. -/
theorem witness_RecReadMayTear :
    (plain.rtc.pend .clock).recTask = none ∧
      ((plain.pendCache .recTask .clock ⟨7, 0, 0⟩).rtc.pend .clock).recTask = some ⟨7, 0, 0⟩ := by
  decide +kernel

/-- The least and the greatest Time, and the greatest count. -/
theorem witness_HourArithmetic :
    ((0 : BitVec 5).toNat ≤ 23 ∧ (0 : BitVec 6).toNat ≤ 59) ∧ (23 : BitVec 5).toNat ≤ 23 ∧
      (59 : BitVec 6).toNat ≤ 59 := by decide

/-- The greatest Time, under both settings of the carry. -/
theorem witness_MinuteArithmetic :
    (23 : BitVec 5).toNat ≤ 23 ∧ (59 : BitVec 6).toNat ≤ 59 ∧ plain.cfg.timeMinuteCarry = true ∧
      ({ plain with cfg := { benchParams with timeMinuteCarry := false } } : State).cfg.timeMinuteCarry =
        false ∧
      (Instr.timeSubm 23 59 59 255, (-255 : Int)) ∈
        [(Instr.timeAddm 23 59 59 255, (255 : Int)), (.timeSubm 23 59 59 255, -255)] := by decide +kernel

theorem witness_SecondsAndNormalisation :
    ((0 : BitVec 5).toNat ≤ 23 ∧ (0 : BitVec 6).toNat ≤ 59 ∧ (0 : BitVec 6).toNat ≤ 59) ∧
      (23 : BitVec 5).toNat ≤ 23 ∧ (59 : BitVec 6).toNat ≤ 59 := by decide

/-- One field at a time just outside its range. -/
theorem witness_IllegalTimeOperandIsRefused :
    (¬ ((24 : BitVec 5).toNat ≤ 23 ∧ (0 : BitVec 6).toNat ≤ 59 ∧ (0 : BitVec 6).toNat ≤ 59)) ∧
      (¬ ((23 : BitVec 5).toNat ≤ 23 ∧ (60 : BitVec 6).toNat ≤ 59 ∧ (0 : BitVec 6).toNat ≤ 59)) ∧
      ¬ ((23 : BitVec 5).toNat ≤ 23 ∧ (59 : BitVec 6).toNat ≤ 59 ∧ (60 : BitVec 6).toNat ≤ 59) := by decide

/-- The greatest value in range, and the least above it. -/
theorem witness_SetdutyAndSetlevel :
    ¬ (255 : BitVec 16).toNat > plain.cfg.dutyMax ∧ (256 : BitVec 16).toNat > plain.cfg.dutyMax ∧
      ¬ (255 : BitVec 16).toNat > plain.cfg.levelMax ∧ (256 : BitVec 16).toNat > plain.cfg.levelMax := by
  decide +kernel

/-- The linear mix and another one, and a strip at the ends of its two ranges for the five cases. -/
theorem witness_StripCommandsMix :
    (strip true 200 100).cfg.cctMix = .linear ∧
      ({ plain with cfg := { benchParams with cctMix := .table [] } } : State).cfg.cctMix ≠ .linear ∧
      (true = !(strip false 0 0).led.stripOn ∧ 0 = (strip false 0 0).led.stripB) ∧
      200 = min ((strip true 200 100).led.stripB + plain.cfg.stripStepB) plain.cfg.stripBMax ∧
      0 = min ((strip true 10 0).led.stripB - plain.cfg.stripStepB) plain.cfg.stripBMax ∧
      100 = min ((strip true 200 100).led.stripCct + plain.cfg.stripStepC) plain.cfg.cctMax ∧
      0 = min ((strip true 10 0).led.stripCct - plain.cfg.stripStepC) plain.cfg.cctMax := by decide +kernel

/-- With the alarm off, with an alarm active, with a flash, without one, on line and off line. -/
theorem witness_TickSetsTheTargets :
    (turns [.ledTimer] plain).inp.sched = .ledTimer :: [] ∧ plain.rtc.alarmState = .off ∧
      (turns [.ledTimer] (ringing 0)).inp.sched = .ledTimer :: [] ∧ (ringing 0).rtc.alarmState ≠ .off ∧
      0 < (after (.stlFlash .red) plain).led.flashLeft ∧ plain.rtc.online = false ∧
      (ringing 0).rtc.online = true := by decide +kernel

/-- A channel below its target, one above it and one at it. -/
theorem witness_TickRampsEveryChannel :
    (turns [.ledTimer] (channel4 ⟨0, 50, 0, true⟩)).inp.sched = .ledTimer :: [] ∧
      (turns [.ledTimer] (channel4 ⟨50, 0, 9, true⟩)).inp.sched = .ledTimer :: [] ∧
      (turns [.ledTimer] (channel4 ⟨50, 50, 9, true⟩)).inp.sched = .ledTimer :: [] := by decide +kernel

/-- A step of 1, and each of the three clauses where the distance is just covered. -/
theorem witness_RampReachesTheTarget :
    1 ≤ 1 ∧ (Channel.mk 0 50 0 true).level ≤ (Channel.mk 0 50 0 true).target ∧
      (Channel.mk 50 0 0 true).target ≤ (Channel.mk 50 0 0 true).level ∧
      (Channel.mk 0 50 0 true).target ≤ (Channel.mk 0 50 0 true).level + 50 * 1 ∧
      (Channel.mk 0 50 0 true).level ≤ (Channel.mk 0 50 0 true).target + 50 * 1 := by decide

theorem witness_FlashLastsFlashTicks :
    1 ≤ plain.cfg.flashTicks ∧ 0 < plain.cfg.flashTicks ∧ 2 < plain.cfg.flashTicks := by decide +kernel

/-- Each of the four steps, with the read answered and with the read failed. -/
theorem witness_BootstrapInitSteps :
    (turns [.recTask] (atPc .bSqw [])).inp.sched = .recTask :: [] ∧
      (turns [.recTask] (atPc .bSqw [])).recPending = false ∧
      (turns [.recTask] (atPc .bSqw [])).rtc.recPc = .bSqw ∧
      (RecPc.bSqw, RtcFlag.sqw, false, RecPc.bInt) ∈
        [(RecPc.bSqw, RtcFlag.sqw, false, RecPc.bInt), (.bInt, .intOut, true, .bA1f),
          (.bA1f, .a1f, false, .bA2f), (.bA2f, .a2f, false, .bRdt)] ∧
      (turns [.recTask] (atPc .bSqw [])).byteAnswer 13 = some 0x1C ∧
      (turns [.recTask] (atPc .bA2f [false])).byteAnswer 14 = none ∧
      (turns [.recTask] (atPc .bInt [])).rtc.recPc = .bInt ∧
      (turns [.recTask] (atPc .bA1f [])).rtc.recPc = .bA1f ∧
      (turns [.recTask] (atPc .bA2f [false])).rtc.recPc = .bA2f := by decide +kernel

/-- The second of the three reads; the others differ in the names only. -/
theorem witness_BootstrapReads :
    ∃ (s : State) (rs : Regs3) (keep : Time → RtcUnit),
      s.inp.sched = .recTask :: [] ∧ s.recPending = false ∧ s.rtc.recPc = .bRda1 ∧
        rs = ⟨.alarm1Seconds, .alarm1Minutes, .alarm1Hours⟩ ∧
        keep = fun tm => { s.rtc with tmpAl1 := some tm, recPc := .bRda2 } :=
  ⟨turns [.recTask] (atPc .bRda1 []), _, _, rfl, by decide +kernel, rfl, rfl, rfl⟩

/-- Each of the three reads is reached with nothing pending, and answered by bytes, by bad bytes and by none. -/
theorem witness_BootstrapReads_pcs :
    (turns [.recTask] (atPc .bRdt [])).rtc.recPc = .bRdt ∧
      (turns [.recTask] (atPc .bRdt [])).recPending = false ∧
      (turns [.recTask] (atPc .bRda2 [])).rtc.recPc = .bRda2 ∧
      (atPc .bRdt []).readAnswer ⟨.seconds, .minutes, .hour⟩ = some ⟨0x56, 0x34, 0x12⟩ ∧
      (atPc .bRdt [false]).readAnswer ⟨.seconds, .minutes, .hour⟩ = none ∧
      (chip [(1, 0x5A)] []).readAnswer ⟨.seconds, .minutes, .hour⟩ = some ⟨0x00, 0x5A, 0x00⟩ := by
  decide +kernel

/-- Alarm 1 with a minute to lower, alarm 2 with a multiple of 5; the mask byte answered, and not answered. -/
theorem witness_BootstrapFixesMinutes :
    ((turns [.recTask] (fixing .bFix1)).inp.sched = .recTask :: [] ∧ (fixing .bFix1).recPending = false ∧
        (fixing .bFix1).rtc.recPc = .bFix1 ∧ (fixing .bFix1).rtc.tmpAl1 = some ⟨7, 32, 0⟩ ∧
        (32 : Nat) % 5 ≠ 0) ∧
      (turns [.recTask] (fixing .bFix2)).inp.sched = .recTask :: [] ∧ (fixing .bFix2).recPending = false ∧
      ((fixing .bFix2).rtc.recPc = .bFix2 ∧ (fixing .bFix2).rtc.tmpAl2 = some ⟨6, 35, 0⟩ ∧
        (35 : Nat) % 5 = 0) ∧
      (fixing .bFix1).maskAnswer [(7, 0x00), (8, 0x30), (9, 0x07)] 9 = some 0x07 ∧
      ((fixing .bFix1).withInp { (fixing .bFix1).inp with sim := some ⟨p1Chip, [false]⟩ }).maskAnswer
        [(7, 0x00), (8, 0x30), (9, 0x07)] 9 = none := by decide +kernel

/-- The first and the second step of `B_COMMIT`, and `S_COMMIT`. -/
theorem witness_RecTaskCommits :
    (turns [.recTask] (fixing .bCommit)).inp.sched = .recTask :: [] ∧
      ((fixing .bCommit).recPending = false ∧ (fixing .bCommit).rtc.recPc = .bCommit ∧
        (fixing .bCommit).rtc.tmpTime = some ⟨12, 34, 56⟩ ∧ (fixing .bCommit).rtc.tmpAl1 = some ⟨7, 32, 0⟩ ∧
        (fixing .bCommit).rtc.tmpAl2 = some ⟨6, 35, 0⟩) ∧
      (committing.rtc.recPc = .bCommit ∧ committing.rtc.clockPend.recTask = some ⟨12, 34, 56⟩ ∧
        committing.rtc.al1Pend.recTask = some ⟨7, 32, 0⟩ ∧ committing.rtc.al2Pend.recTask = some ⟨6, 35, 0⟩) ∧
      (afterTurn .recTask (steady [] [false])).rtc.recPc = .sCommit ∧
      (afterTurn .recTask (steady [] [false])).rtc.clockPend.recTask = some ⟨12, 34, 57⟩ ∧
      (afterTurn .recTask (steady [] [false])).rtc.al1Pend.recTask = none ∧
      (afterTurn .recTask (steady [] [false])).rtc.al2Pend.recTask = none := by decide +kernel

/-- With the poll answered and with the poll failed. -/
theorem witness_PollOrFallback :
    (turns [.recTask] (steady p1Chip [])).inp.sched = .recTask :: [] ∧
      (steady p1Chip []).recPending = false ∧ (steady p1Chip []).rtc.recPc = .sRead ∧
      (steady p1Chip []).readAnswer ⟨.seconds, .minutes, .hour⟩ = some ⟨0x56, 0x34, 0x12⟩ ∧
      (steady p1Chip [false]).readAnswer ⟨.seconds, .minutes, .hour⟩ = none := by decide +kernel

/-- With a match and a clear latch, with a match and a set latch, and with no match. -/
theorem witness_AlarmEdgeLatch :
    (turns [.recTask] (evaluating .alarm1 ⟨7, 0, 0⟩ ⟨7, 0, 0⟩ ⟨6, 0, 0⟩ .off false)).inp.sched =
        .recTask :: [] ∧
      (evaluating .alarm1 ⟨7, 0, 0⟩ ⟨7, 0, 0⟩ ⟨6, 0, 0⟩ .off false).recPending = false ∧
      (evaluating .alarm1 ⟨7, 0, 0⟩ ⟨7, 0, 0⟩ ⟨6, 0, 0⟩ .off false).rtc.recPc = .sEval ∧
      (evaluating .alarm1 ⟨7, 0, 0⟩ ⟨7, 0, 0⟩ ⟨6, 0, 0⟩ .off false).cfg.alarmLeadMin = 0 ∧
      (evaluating .off ⟨7, 0, 0⟩ ⟨7, 0, 0⟩ ⟨6, 0, 0⟩ .snooze true).recPending = false := by decide +kernel

/-- The oracle's seven answers of a whole pass. -/
def passAnswers : List (Option Bytes3) :=
  [some ⟨0x1C, 0, 0⟩, some ⟨0x1C, 0, 0⟩, some ⟨0x03, 0, 0⟩, some ⟨0x02, 0, 0⟩, some ⟨0x56, 0x34, 0x12⟩,
    some ⟨0x00, 0x32, 0x07⟩, some ⟨0x59, 0x59, 0x23⟩]

theorem witness_BootstrapPassCommits :
    ∃ s : State, s.inp.sched = List.replicate 11 Agent.recTask ++ [] ∧ s.inp.sim = none ∧
      s.inp.reads = passAnswers ++ [] ∧
      Params.ReadsAs s.cfg ⟨.seconds, .minutes, .hour⟩ (some ⟨0x56, 0x34, 0x12⟩) (.got ⟨12, 34, 56⟩) ∧
      Params.ReadsAs s.cfg ⟨.alarm1Seconds, .alarm1Minutes, .alarm1Hours⟩ (some ⟨0x00, 0x32, 0x07⟩)
        (.got ⟨7, 32, 0⟩) ∧
      Params.ReadsAs s.cfg ⟨.alarm2Seconds, .alarm2Minutes, .alarm2Hours⟩ (some ⟨0x59, 0x59, 0x23⟩)
        (.got ⟨23, 59, 59⟩) ∧
      s.rtc.recPc = .bSqw ∧ s.recPending = false :=
  ⟨plain.withInp { plain.inp with sched := List.replicate 11 .recTask, reads := passAnswers }, rfl, rfl, rfl,
    ⟨_, rfl, rfl, rfl, rfl⟩, ⟨_, rfl, rfl, rfl, rfl⟩, ⟨_, rfl, rfl, rfl, rfl⟩, rfl, rfl⟩

/-- A turn of each agent with a next state. -/
theorem witness_WritersOfEachCell :
    (presents 0x08000032 plain).turn .host = .next (nextOf ((presents 0x08000032 plain).turn .host) plain) ∧
      (showing 0).turn .muxIsr = .next (showing 0).muxTurn ∧
      (atPc .bRdt []).turn .recTask = .next (nextOf ((atPc .bRdt []).turn .recTask) plain) ∧
      plain.turn .ledTimer = .next plain.ledTick := by
  refine ⟨rfl, rfl, rfl, rfl⟩

/-- A state with a fault recorded, a word refused, and the block ready, in the steady phase. -/
def marked : State :=
  ((steady p1Chip []).takeFault ⟨.recTask, .minutes, 0x5A⟩).refuse (.reservedEncoding 0)

theorem witness_NothingUndone :
    step (turns [.recTask] marked) = .next (afterTurn .recTask marked) ∧ marked.out.refused = true ∧
      marked.out.faults = [⟨.recTask, .minutes, 0x5A⟩] ∧ marked.rtc.ready = true ∧
      marked.rtc.recPc.steady = true := by
  refine ⟨rfl, ?_, ?_, ?_, ?_⟩ <;> decide +kernel

theorem benchParams_legal : benchParams.legal = true := by decide +kernel

/-- The invariants hold after reset with the test parameters. -/
theorem plain_inv : plain.Inv where
  display := ⟨by decide +kernel, by decide +kernel, by decide +kernel, rfl, rfl, rfl, rfl⟩
  range :=
    ⟨benchParams_legal, by decide +kernel, by unfold Channel.InRange; decide +kernel, by decide +kernel,
      by decide +kernel, by decide +kernel, by decide +kernel⟩
  recon := ⟨trivial, ⟨rfl, rfl, rfl⟩, rfl, fun _ => rfl, fun _ => rfl⟩
  host := by unfold State.HostInv; decide +kernel
  bus := rfl
  sim := by intro c h; cases h

/-- The invariants hold in a state of the steady phase with the display on and an alarm ringing. -/
theorem ringing_inv :
    ((ringing 0).withDisp (afterTurn .muxIsr (showing 0)).disp).Inv where
  display := by constructor <;> decide +kernel
  range :=
    ⟨benchParams_legal, by decide +kernel, by unfold Channel.InRange; decide +kernel, by decide +kernel,
      by decide +kernel, by decide +kernel, by decide +kernel⟩
  recon := ⟨trivial, ⟨rfl, rfl, rfl⟩, rfl, by decide +kernel, by decide +kernel⟩
  host := by unfold State.HostInv; decide +kernel
  bus := rfl
  sim := by intro c h; cases h; rfl

theorem witness_StepKeepsInv :
    ((ringing 0).withDisp (afterTurn .muxIsr (showing 0)).disp).Inv ∧
      ∃ t, step (turns [.recTask] plain) = .next t :=
  ⟨ringing_inv, _, rfl⟩

theorem witness_StepNeverStops : plain.Inv := plain_inv

theorem witness_CleanResetMeetsInv : (chip p1Chip [false]).CleanReset ∧ (chip p1Chip [false]).SimInv :=
  ⟨⟨benchParams, 5, 0, 0, (chip p1Chip [false]).inp, benchParams_legal, rfl, rfl⟩, by
    intro c h
    cases h
    decide⟩

theorem witness_ResetValues : plain.CleanReset :=
  ⟨benchParams, 5, 0, 0, plain.inp, benchParams_legal, rfl, rfl⟩

end Sys2Proof.Tests
end

section
/-! SUPPORT. The turn of `Host` taken apart (R178): one equation per function on the way from the turn to the
instruction. -/

namespace Sys2Proof.Machine

/-- The Host's pending slots are no part of the inputs. -/
@[simp] theorem State.hostPending_withInp (s : State) (x : Inputs) :
    (s.withInp x).hostPending = s.hostPending := rfl

/-- With nothing of the Host pending its turn is a command turn (R178). -/
theorem State.hostTurn_of_not_pending (s : State) (h : s.hostPending = false) :
    s.hostTurn = s.commandTurn := by
  simp [State.hostTurn, h]

/-- Where the environment names the next word, a command turn takes it and runs it (R178). -/
theorem State.commandTurn_of_words (s : State) (w : Command) (ws : List Command)
    (h : s.inp.words = w :: ws) :
    s.commandTurn = (s.withInp { s.inp with words := ws }).runWord w := by
  simp only [State.commandTurn, State.nextWord, h]

/-- Running a word that decodes is running its instruction (R5). -/
theorem State.runWord_of_instr (s : State) (w : Command) (i : Instr) (h : decodeWord w = .instr i) :
    s.runWord w = exec i s := by
  simp only [State.runWord, h]

end Sys2Proof.Machine
end

section
/-! PROOFS. The statements about the step as a whole. -/

namespace Sys2Proof.Proofs

open Sys2Proof.Machine

/-- Settles O5: the Host's turn with nothing pending is a command turn, which takes the environment's word and
runs the instruction it decodes to. -/
theorem stepRunsTheDecodedWord : Obligations.StepRunsTheDecodedWord := by
  intro s as w ws i hsched hwords hpend hdec
  let s1 := s.withInp { s.inp with sched := as }
  have hpend1 : s1.hostPending = false := (s.hostPending_withInp _).trans hpend
  calc step s
      _ = s1.hostTurn := step_of_sched s .host as hsched
      _ = s1.commandTurn := s1.hostTurn_of_not_pending hpend1
      _ = (s1.withInp { s1.inp with words := ws }).runWord w := s1.commandTurn_of_words w ws hwords
      _ = exec i (s1.withInp { s1.inp with words := ws }) := State.runWord_of_instr _ w i hdec

end Sys2Proof.Proofs
end

section
/-! SUPPORT. What no step undoes, as a relation between a state and a later one: it is reflexive, each named
update of the state carries it on, and so does the turn of each agent (R6, R24, R32, R141). -/

namespace Sys2Proof.Machine

/-- `t` has what `s` has recorded or reached for good: its faults and refused bit (R32), the ready event (R24),
the steady phase (R141) and the parameters (R6). -/
structure State.Keeps (s t : State) : Prop where
  faults : s.out.faults <+: t.out.faults
  refused : s.out.refused = true → t.out.refused = true
  ready : s.rtc.ready = true → t.rtc.ready = true
  steady : s.rtc.recPc.steady = true → t.rtc.recPc.steady = true
  cfg : t.cfg = s.cfg

namespace State.Keeps

variable {s t u : State}

theorem trans (h : s.Keeps t) (k : t.Keeps u) : s.Keeps u where
  faults := h.faults.trans k.faults
  refused := k.refused ∘ h.refused
  ready := k.ready ∘ h.ready
  steady := k.steady ∘ h.steady
  cfg := k.cfg.trans h.cfg

/-- Nothing is undone where the parameters, the RTC unit and the two records of R32 are as they were. -/
theorem of_eq (hcfg : t.cfg = s.cfg) (hrtc : t.rtc = s.rtc) (hfaults : t.out.faults = s.out.faults)
    (hrefused : t.out.refused = s.out.refused) : s.Keeps t where
  faults := hfaults ▸ List.prefix_rfl
  refused := fun h => hrefused.trans h
  ready := fun h => hrtc ▸ h
  steady := fun h => hrtc ▸ h
  cfg := hcfg

theorem refl (s : State) : s.Keeps s := of_eq rfl rfl rfl rfl

theorem ite {p : Prop} [Decidable p] (ht : s.Keeps t) (hu : s.Keeps u) : s.Keeps (if p then t else u) := by
  split
  · exact ht
  · exact hu

/-! ### The named updates -/

theorem withInp (h : s.Keeps t) (x : Inputs) : s.Keeps (t.withInp x) := h.trans (of_eq rfl rfl rfl rfl)

theorem withDisp (h : s.Keeps t) (x : Display) : s.Keeps (t.withDisp x) := h.trans (of_eq rfl rfl rfl rfl)

theorem setChannel (h : s.Keeps t) (c : Fin 6) (x : Channel) : s.Keeps (t.setChannel c x) :=
  h.trans (of_eq rfl rfl rfl rfl)

theorem trace (h : s.Keeps t) (es : List PinEvent) : s.Keeps (t.trace es) := h.trans (of_eq rfl rfl rfl rfl)

theorem drawn (h : s.Keeps t) (k : Nat) : s.Keeps (t.drawn k) := h.withInp _

theorem answer (h : s.Keeps t) (v : Value) : s.Keeps (t.answer v) := h.trans (of_eq rfl rfl rfl rfl)

theorem answerFree (h : s.Keeps t) : s.Keeps t.answerFree := (h.drawn 1).answer _

theorem takeFault (h : s.Keeps t) (f : FaultRecord) : s.Keeps (t.takeFault f) :=
  { h with faults := h.faults.trans (List.prefix_append _ _) }

theorem hostFault (h : s.Keeps t) (reg : RtcReg) (byte : Byte) : s.Keeps (t.hostFault reg byte) :=
  (h.takeFault ⟨.host, reg, byte⟩).trans (of_eq rfl rfl rfl rfl)

theorem refuse (h : s.Keeps t) (q : RefusedWord) : s.Keeps (t.refuse q) := { h with refused := fun _ => rfl }

/-- Traffic on the bus undoes nothing, whatever is on it (R104). -/
theorem busOnly {xs : List BusItem} (h : s.Keeps t) (hbus : t.BusOnly u xs) : s.Keeps u := by
  obtain ⟨⟨hcfg, -, hrtc, -, -⟩, hout, -⟩ := hbus
  exact h.trans (of_eq hcfg hrtc (by rw [hout]) (by rw [hout]))

theorem readCache (h : s.Keeps t) (a : Agent) (c : CacheSel) : s.Keeps (t.readCache a c).2 :=
  h.trans (of_eq (by simp) (by simp) (by simp) (by simp))

theorem readTemporary (h : s.Keeps t) (x : Option Time) : s.Keeps (t.readTemporary x).2 := by
  rcases t.readTemporary_snd x with e | e <;> rw [e]
  · exact h
  · exact h.drawn 1

/-! ### Updates of the RTC unit -/

theorem withRtc (h : s.Keeps t) (x : RtcUnit) (hready : s.rtc.ready = true → x.ready = true)
    (hsteady : s.rtc.recPc.steady = true → x.recPc.steady = true) : s.Keeps (t.withRtc x) :=
  { h with ready := hready, steady := hsteady }

theorem setOnline (h : s.Keeps t) (b : Bool) : s.Keeps (t.withRtc { t.rtc with online := b }) :=
  h.withRtc _ h.ready h.steady

theorem pendCache (h : s.Keeps t) (a : Agent) (c : CacheSel) (x : Time) : s.Keeps (t.pendCache a c x) := by
  cases c <;> exact h.withRtc _ h.ready h.steady

/-- Phase 2 of an agent's writes leaves `ready` and `recPc` to its caller (R39). -/
theorem commitRtc (h : s.Keeps t) (a : Agent) : s.Keeps (t.withRtc (t.rtc.commit a)) := by
  cases a <;> exact h.withRtc _ h.ready h.steady

/-- A jump of `recPc` undoes nothing where it does not leave the steady phase (R141). -/
theorem goTo (h : s.Keeps t) (pc : RecPc) (hpc : s.rtc.recPc.steady = true → pc.steady = true) :
    s.Keeps (t.goTo pc) := h.withRtc _ h.ready hpc

/-- In the bootstrap any jump of `recPc` undoes nothing. -/
theorem goToInBoot (h : s.Keeps t) (hboot : s.rtc.recPc.steady = false) (pc : RecPc) : s.Keeps (t.goTo pc) :=
  h.goTo pc fun hsteady => absurd hsteady (by simp [hboot])

/-- The failure step goes back to `B_SQW`; only the bootstrap takes it (R127). -/
theorem bootFail (h : s.Keeps t) (hboot : s.rtc.recPc.steady = false) : s.Keeps t.bootFail :=
  (h.setOnline false).goToInBoot hboot .bSqw

end State.Keeps

/-! ### The turn of `Host` -/

theorem State.keeps_answerFetched {α : Type} {s t : State} (h : s.Keeps t) (v : Option α → Value)
    (f : Fetched α) : s.Keeps (t.answerFetched v f) := by
  cases f with
  | failed => exact h.answer _
  | got a => exact h.answer _
  | bad reg byte => exact h.hostFault reg byte

theorem State.keeps_setterCommand {α : Type} (s : State) (operand : Option α) (write : α → Bool × State)
    (hw : ∀ a, s.Keeps (write a).2) : s.Keeps (s.setterCommand operand write) := by
  cases operand with
  | some a => exact (hw a).answer _
  | none => exact (State.Keeps.refl s).answerFree

theorem State.keeps_setCached (s : State) (c : CacheSel) (operand : Option Time) (write : Time → Bool × State)
    (hw : ∀ a, s.Keeps (write a).2) : s.Keeps (s.setCached c operand write) := by
  cases operand with
  | some t => exact ((hw t).pendCache .host c t).answer _
  | none => exact (State.Keeps.refl s).answerFree

theorem State.keeps_timeCommand (s : State) (h : BitVec 5) (m sec : BitVec 6) (w : Command) (f : Time → Time) :
    s.Keeps (s.timeCommand h m sec w f) := by
  unfold State.timeCommand
  split
  · exact (State.Keeps.refl s).answer _
  · exact (State.Keeps.refl s).refuse _

theorem State.keeps_getTime (s : State) : s.Keeps s.getTime.2 := (Keeps.refl s).busOnly s.getTime_spec.2

theorem State.keeps_getAlarm (s : State) (n : AlarmNo) : s.Keeps (s.getAlarm n).2 :=
  (Keeps.refl s).busOnly (s.getAlarm_spec n).2

theorem State.keeps_busWrite (s : State) (items : List (RtcReg × Byte)) : s.Keeps (s.busWrite items).2 :=
  (Keeps.refl s).busOnly (s.busWrite_spec items).2

theorem State.keeps_setTime (s : State) (t : Time) : s.Keeps (s.setTime t).2 := s.keeps_busWrite _

theorem State.keeps_setAlarm (s : State) (n : AlarmNo) (t : Time) : s.Keeps (s.setAlarm n t).2 :=
  (Keeps.refl s).busOnly (s.setAlarm_spec n t).2

theorem State.keeps_setFlag (s : State) (f : RtcFlag) (on : Bool) : s.Keeps (s.setFlag f on).2 :=
  (Keeps.refl s).busOnly (s.setFlag_spec f on).2

/-- A command gives a next state and undoes nothing: it may answer, fault or be refused (R166). -/
theorem exec_keeps (i : Instr) (s : State) : ∃ t, exec i s = .next t ∧ s.Keeps t := by
  have h := State.Keeps.refl s
  cases i with
  | dspWrgrid | dspGetcmp | recIsonline | recStatus | pwmStart | pwmStop | stlFrameclr | stlAlarmleds
  | stlFlash | stripToggle | stripNudge => exact ⟨_, rfl, .of_eq rfl rfl rfl rfl⟩
  | dspSetbright => exact ⟨_, rfl, (h.ite (h.withDisp _)).answer _⟩
  | dspEnable => exact ⟨_, rfl, (h.ite ((h.withDisp _).trace _)).answer _⟩
  | dspDisable => exact ⟨_, rfl, (State.Keeps.ite ((h.withDisp _).trace _) h).answer _⟩
  | rtcRdreg reg => exact ⟨_, rfl, (h.busOnly (s.busRead1_spec reg).2).answer _⟩
  | rtcWrreg reg val => exact ⟨_, rfl, (s.keeps_busWrite [(reg, val)]).answer _⟩
  | rtcUpdreg reg bit v => exact ⟨_, rfl, (h.busOnly (s.busRmw_spec _ bit v).2).answer _⟩
  | rtcGettime => exact ⟨_, rfl, State.keeps_answerFetched s.keeps_getTime _ _⟩
  | rtcGetdate => exact ⟨_, rfl, State.keeps_answerFetched (h.busOnly s.getDate_spec.2) _ _⟩
  | rtcGetal1 => exact ⟨_, rfl, State.keeps_answerFetched (s.keeps_getAlarm .one) _ _⟩
  | rtcGetal2 => exact ⟨_, rfl, State.keeps_answerFetched (s.keeps_getAlarm .two) _ _⟩
  | rtcSettime => exact ⟨_, rfl, s.keeps_setterCommand _ _ s.keeps_setTime⟩
  | rtcSetdate => exact ⟨_, rfl, s.keeps_setterCommand _ _ fun _ => s.keeps_busWrite _⟩
  | rtcSetal1 => exact ⟨_, rfl, s.keeps_setterCommand _ _ (s.keeps_setAlarm .one)⟩
  | rtcSetal2 => exact ⟨_, rfl, s.keeps_setterCommand _ _ (s.keeps_setAlarm .two)⟩
  | rtcSetflag fid on => exact ⟨_, rfl, (s.keeps_setFlag fid on).answer _⟩
  | rtcSelftest => exact ⟨_, rfl, (h.busOnly s.busProbe_spec.2).answer _⟩
  | recSetmode v => exact ⟨_, rfl, (h.withRtc { s.rtc with alarmMode := v } h.ready h.steady).answer _⟩
  | recSetstate v => exact ⟨_, rfl, (h.withRtc { s.rtc with alarmState := v } h.ready h.steady).answer _⟩
  | recSetclock => exact ⟨_, rfl, s.keeps_setCached _ _ _ s.keeps_setTime⟩
  | recSetal1 => exact ⟨_, rfl, s.keeps_setCached _ _ _ (s.keeps_setAlarm .one)⟩
  | recSetal2 => exact ⟨_, rfl, s.keeps_setCached _ _ _ (s.keeps_setAlarm .two)⟩
  | recRead tsel => exact ⟨_, rfl, (h.readCache .host tsel).answer _⟩
  | timeAddh | timeAddm | timeSubh | timeSubm | timeAdds | timeNorm5 =>
    exact ⟨_, rfl, s.keeps_timeCommand _ _ _ _ _⟩
  | pwmSetduty | ledSetlevel => exact ⟨_, rfl, (h.refuse _).ite ((h.setChannel _ _).answer _)⟩

theorem State.keeps_runWord (s : State) (w : Command) : ∃ t, s.runWord w = .next t ∧ s.Keeps t := by
  unfold State.runWord
  split
  · exact exec_keeps _ s
  · exact ⟨_, rfl, (Keeps.refl s).refuse _⟩

theorem State.keeps_nextWord (s : State) : s.Keeps s.nextWord.2 := by
  obtain ⟨x, e, -⟩ := s.nextWord_snd
  exact e ▸ (Keeps.refl s).withInp x

theorem State.keeps_hostTurn (s : State) : ∃ t, s.hostTurn = .next t ∧ s.Keeps t := by
  unfold State.hostTurn State.commandTurn
  split
  · exact ⟨_, rfl, ((Keeps.refl s).withDisp _).commitRtc .host⟩
  · split
    · obtain ⟨t, ht, hk⟩ := s.nextWord.2.keeps_runWord ‹_›
      exact ⟨t, ht, s.keeps_nextWord.trans hk⟩
    · exact ⟨_, rfl, s.keeps_nextWord⟩

/-! ### The turns of `MuxIsr` and `LedTimer` -/

theorem State.keeps_shiftBits (f : Frame) (l : List Nat) (s : State) :
    s.Keeps (l.foldl (fun s j => s.shiftBit (f.getLsbD j)) s) := by
  induction l generalizing s with
  | nil => exact Keeps.refl s
  | cons j l ih => exact (((Keeps.refl s).withDisp _).trace _).trans (ih _)

theorem State.keeps_shiftFrame (s : State) (f : Frame) : s.Keeps (s.shiftFrame f) :=
  State.keeps_shiftBits f _ s

theorem State.keeps_muxStep (s : State) : s.Keeps s.muxStep := by
  have hblank : s.Keeps s.blankDigits.advanceDigit := (((Keeps.refl s).withDisp _).trace _).withDisp _
  obtain ⟨n, hn⟩ := s.blankDigits.advanceDigit.fetchFrame_snd
  have hfetch : s.Keeps s.blankDigits.advanceDigit.fetchFrame.2 := hn ▸ hblank.drawn n
  have hshift := hfetch.trans (State.keeps_shiftFrame _ s.blankDigits.advanceDigit.fetchFrame.1)
  exact (((hshift.withDisp _).trace _).withDisp _).trace _

theorem State.keeps_muxTurn (s : State) : s.Keeps s.muxTurn := s.keeps_muxStep.ite (Keeps.refl s)

theorem State.keeps_ledTick (s : State) : s.Keeps s.ledTick := by
  obtain ⟨n, l, -, e⟩ := s.ledTick_eq
  exact e ▸ .of_eq rfl rfl rfl rfl

/-! ### The turn of `RecTask` -/

theorem State.keeps_recFetched {s : State} {r : Fetched Time × State} (h : s.Keeps r.2) :
    s.Keeps (State.recFetched r).2 := by
  obtain ⟨f, t⟩ := r
  cases f with
  | failed => exact h
  | got x => exact h
  | bad reg byte => exact h.takeFault _

theorem State.keeps_initStep (s : State) (f : RtcFlag) (on : Bool) (next : RecPc)
    (hboot : s.rtc.recPc.steady = false) : s.Keeps (s.initStep f on next) :=
  have h := s.keeps_setFlag f on
  (h.goToInBoot hboot next).ite (h.bootFail hboot)

theorem State.keeps_bootRead {s : State} {r : Fetched Time × State} (hr : s.Keeps r.2)
    (keep : State → Time → State) (hkeep : ∀ t x, s.Keeps t → s.Keeps (keep t x)) (next : RecPc)
    (hboot : s.rtc.recPc.steady = false) : s.Keeps (State.bootRead (State.recFetched r) keep next) := by
  have h := State.keeps_recFetched hr
  unfold State.bootRead
  split
  · exact (hkeep _ _ h).goToInBoot hboot next
  · exact h.bootFail hboot

theorem State.Keeps.keepTime {s t : State} (h : s.Keeps t) (x : Time) : s.Keeps (t.keepTime x) :=
  h.withRtc _ h.ready h.steady

theorem State.Keeps.keepAlarm {s t : State} (h : s.Keeps t) (n : AlarmNo) (x : Time) :
    s.Keeps (State.keepAlarm n t x) := by
  cases n <;> exact h.withRtc _ h.ready h.steady

theorem State.keeps_fixStep (s : State) (n : AlarmNo) (next : RecPc) (hboot : s.rtc.recPc.steady = false) :
    s.Keeps (s.fixStep n next) := by
  have h := (Keeps.refl s).readTemporary (s.rtc.tmpAlarm n)
  exact (Keeps.ite ((h.keepAlarm n _).trans (State.keeps_setAlarm _ n _)) h).goToInBoot hboot next

theorem State.keeps_commitStep (s : State) : s.Keeps s.commitStep :=
  have h := (((Keeps.refl s).readTemporary _).readTemporary _).readTemporary _
  ((h.pendCache .recTask .clock _).pendCache .recTask .al1 _).pendCache .recTask .al2 _

theorem State.keeps_pollStep (s : State) : s.Keeps s.pollStep := by
  have h := State.keeps_recFetched s.keeps_getTime
  unfold State.pollStep
  dsimp only
  split
  · exact ((h.setOnline true).pendCache _ _ _).goTo .sCommit fun _ => rfl
  · exact (((h.readCache .recTask .clock).setOnline false).pendCache _ _ _).goTo .sCommit fun _ => rfl

/-- The edge latch is no part of `ready` or `recPc` (R27). -/
theorem RtcUnit.latchAlarm_ready_recPc (r : RtcUnit) (hit : Bool) :
    (r.latchAlarm hit).ready = r.ready ∧ (r.latchAlarm hit).recPc = r.recPc := by
  unfold RtcUnit.latchAlarm
  split
  · split <;> exact ⟨rfl, rfl⟩
  · exact ⟨rfl, rfl⟩

theorem State.keeps_evalStep (s : State) : s.Keeps s.evalStep := by
  have h := (((Keeps.refl s).readCache .recTask .clock).readCache .recTask .al1).readCache .recTask .al2
  refine (h.withRtc _ ?_ ?_).goTo _ fun _ => rfl
  · rw [(RtcUnit.latchAlarm_ready_recPc _ _).1]; exact h.ready
  · rw [(RtcUnit.latchAlarm_ready_recPc _ _).2]; exact h.steady

theorem State.keeps_recPhase2 (s : State) : s.Keeps s.recPhase2 := by
  have h : s.Keeps s.commitRec := (Keeps.refl s).commitRtc .recTask
  unfold State.recPhase2
  cases s.rtc.recPc with
  | bCommit => exact h.withRtc _ (fun _ => rfl) fun _ => rfl
  | sCommit => exact h.goTo _ fun _ => rfl
  | bSqw | bInt | bA1f | bA2f | bRdt | bRda1 | bRda2 | bFix1 | bFix2 | sRead | sEval => exact h

/-- Only a bootstrap micro-step can go back to `B_SQW`; those of the steady phase stay in it (R127, R141). -/
theorem State.keeps_microStep (s : State) : s.Keeps s.microStep := by
  unfold State.microStep
  cases hpc : s.rtc.recPc with
  | bSqw | bInt | bA1f | bA2f => exact s.keeps_initStep _ _ _ (by rw [hpc]; rfl)
  | bRdt =>
    exact State.keeps_bootRead s.keeps_getTime _ (fun _ x h => h.keepTime x) _ (by rw [hpc]; rfl)
  | bRda1 | bRda2 =>
    exact State.keeps_bootRead (s.keeps_getAlarm _) _ (fun _ x h => h.keepAlarm _ x) _ (by rw [hpc]; rfl)
  | bFix1 | bFix2 => exact s.keeps_fixStep _ _ (by rw [hpc]; rfl)
  | bCommit => exact s.keeps_commitStep
  | sRead => exact s.keeps_pollStep
  | sCommit => exact (Keeps.refl s).goTo _ fun _ => rfl
  | sEval => exact s.keeps_evalStep

theorem State.keeps_recTurn (s : State) : s.Keeps s.recTurn := s.keeps_recPhase2.ite s.keeps_microStep

/-! ### The step -/

theorem State.keeps_turn (s : State) (a : Agent) : ∃ t, s.turn a = .next t ∧ s.Keeps t := by
  cases a with
  | host => exact s.keeps_hostTurn
  | muxIsr => exact ⟨_, rfl, s.keeps_muxTurn⟩
  | recTask => exact ⟨_, rfl, s.keeps_recTurn⟩
  | ledTimer => exact ⟨_, rfl, s.keeps_ledTick⟩

theorem step_keeps (s : State) : ∃ t, step s = .next t ∧ s.Keeps t := by
  obtain ⟨x, e, -⟩ := s.nextAgent_snd
  obtain ⟨t, ht, hk⟩ := (s.withInp x).keeps_turn s.nextAgent.1
  exact ⟨t, by rw [step, e, ht], ((State.Keeps.refl s).withInp x).trans hk⟩

end Sys2Proof.Machine
end

section
/-! PROOFS. What no step undoes. -/

namespace Sys2Proof.Proofs

open Sys2Proof.Machine

/-- Settles O56: every turn carries on the faults, the refused bit, the ready event, the steady phase and the
parameters. -/
theorem nothingUndone : Obligations.NothingUndone := by
  intro s t hstep
  obtain ⟨u, hu, hfaults, hrefused, hready, hsteady, hcfg⟩ := step_keeps s
  obtain rfl : u = t := Host.Outcome.next.inj (hu.symm.trans hstep)
  exact ⟨hfaults, hrefused, hready, hsteady, hcfg⟩

end Sys2Proof.Proofs
end

section
/-! SUPPORT. Phase 2 of the Host's pending writes (R39, R178), and what each field of a torn grid entry may be
(R40). -/

namespace Sys2Proof.Machine

/-- With a write of the Host pending its turn is phase 2, whatever words it has to present (R39, R178). -/
theorem State.hostTurn_of_pending (s : State) (h : s.hostPending = true) :
    s.hostTurn = .next s.commitHost := by
  rw [State.hostTurn, if_pos h]

/-- A pending entry is what phase 2 leaves (R39). -/
@[simp] theorem commitEntry_some (e : GridEntry) (cell : Option GridEntry) :
    commitEntry (some e) cell = some e := rfl

/-- Where nothing is pending phase 2 leaves the entry, unwritten included (R39). -/
@[simp] theorem commitEntry_none (cell : Option GridEntry) : commitEntry none cell = cell := rfl

/-- With one value pending, a torn field is the current value or the pending one (R40). -/
theorem tornField_of_one {α : Type} (x v : α) (n : Nat) : tornField x [v] n = x ∨ tornField x [v] n = v := by
  simpa using tornField_mem x [v] n

/-- Each field of `e` is by itself the field of `x` or that of `v` (R40). -/
structure TornFrom (e x v : GridEntry) : Prop where
  seg : e.seg = x.seg ∨ e.seg = v.seg
  dots : e.dots = x.dots ∨ e.dots = v.dots
  ub : e.ub = x.ub ∨ e.ub = v.ub
  lb : e.lb = x.lb ∨ e.lb = v.lb

/-- A torn entry is mixed from the current one and the pending one (R40). -/
theorem tornEntry_tornFrom (x v : GridEntry) (n : Nat) : TornFrom (tornEntry x v n) x v where
  seg := tornField_of_one x.seg v.seg n
  dots := tornField_of_one x.dots v.dots (n + 1)
  ub := tornField_of_one x.ub v.ub (n + 2)
  lb := tornField_of_one x.lb v.lb (n + 3)

/-- With a write pending, the multiplex step reads some entry, mixed from the two where the entry was written
(R40). -/
theorem State.readGrid_of_pending (s : State) (k : Fin 6) (v : GridEntry)
    (hpend : s.disp.gridPend.get k = some v) :
    ∃ e, (s.readGrid k).1 = some e ∧ ∀ x, s.disp.grid.get k = some x → TornFrom e x v := by
  unfold State.readGrid
  rw [hpend]
  cases s.disp.grid.get k with
  | none => exact ⟨_, rfl, nofun⟩
  | some x => exact ⟨_, rfl, fun _ hx => Option.some.inj hx ▸ tornEntry_tornFrom x v s.inp.draws⟩

end Sys2Proof.Machine
end

section
/-! PROOFS. The statements about two-phase writes and the reads that can see them. -/

namespace Sys2Proof.Proofs

open Sys2Proof.Machine

/-- Settles O8: the Host's turn with a write pending is `commitHost`, run once its turn is off the list. -/
theorem hostPhaseTwo : Obligations.HostPhaseTwo := by
  intro s as hsched hpend
  let s1 := s.withInp { s.inp with sched := as }
  have hpend1 : s1.hostPending = true := (s.hostPending_withInp _).trans hpend
  have hstep : step s = .next s1.commitHost :=
    (step_of_sched s .host as hsched).trans (s1.hostTurn_of_pending hpend1)
  have hgrid (k : Fin 6) :
      s1.commitHost.disp.grid.get k = commitEntry (s.disp.gridPend.get k) (s.disp.grid.get k) :=
    Six.get_zip commitEntry s.disp.gridPend s.disp.grid k
  refine ⟨s1.commitHost, hstep, fun k => ?_, fun k => Six.get_fill none k, rfl, rfl, rfl, rfl, rfl, rfl⟩
  rw [hgrid k]
  cases s.disp.gridPend.get k with
  | none => exact commitEntry_none _
  | some e => exact commitEntry_some e _

/-- Settles O11: a read only takes free values; with nothing pending it is the entry, and with a write pending it
is an entry torn field by field. -/
theorem gridReadMayTear : Obligations.GridReadMayTear := by
  intro s k
  refine ⟨s.readGrid_snd k, fun hquiet => congrArg Prod.fst (s.readGrid_quiet k hquiet), fun v hpend => ?_⟩
  obtain ⟨e, hread, htorn⟩ := s.readGrid_of_pending k v hpend
  refine ⟨e, hread, fun x hx => ?_⟩
  obtain ⟨hseg, hdots, hub, hlb⟩ := htorn x hx
  exact ⟨hseg, hdots, hub, hlb⟩

end Sys2Proof.Proofs
end

section
/-! SUPPORT. The fields of a word against its bits 25:0 (R55), each table of codes from the side of the code
(R35, R57, R63 to R65, R68, R112, R148), and the two checks every format is built from (R169). -/

namespace Sys2Proof

open Sys2Proof.Laws.TableWord

/-- A word is its opcode and its bits 25:0 (R55). -/
theorem packWord_bits (w : Command) : packWord (bits w 31 26) (bits w 25 0) = w := by
  apply BitVec.eq_of_toNat_eq
  rw [packWord_toNat _ _ (by unfold bits; omega) (by unfold bits; omega)]
  unfold bits
  omega

/-- A field read into a word of its own width keeps its number (R7). -/
theorem toNat_ofNat_bits (w : Command) {hi lo n : Nat} (hn : hi + 1 - lo = n) :
    (BitVec.ofNat n (bits w hi lo)).toNat = bits w hi lo := by
  rw [BitVec.toNat_ofNat, bits, hn, Nat.mod_mod]

theorem bitNat_bitAt (w : Command) (j : Nat) : bitNat (bitAt w j) = bits w j j := by
  have h : bits w j j = 0 ∨ bits w j j = 1 := by
    simpa [bits] using Nat.mod_two_eq_zero_or_one (w.toNat / 2 ^ j)
  rcases h with h | h <;> rw [bitAt, h] <;> rfl

theorem bitAt_of_bits {w : Command} {j : Nat} {b : Bool} (h : bits w j j = bitNat b) : bitAt w j = b := by
  unfold bitAt
  rw [h]
  cases b <;> rfl

/-- The low bits of every format fit below the opcode (R55). -/
theorem Instr.low_lt (i : Instr) : i.low < 2 ^ 26 := by
  cases i with
  | dspWrgrid _ _ dots ub lb =>
    have hdots := bitNat_lt dots
    have hub := bitNat_lt ub
    have hlb := bitNat_lt lb
    simp only [Instr.low]
    omega
  | rtcRdreg r | rtcWrreg r =>
    have hr := RtcReg.code_lt r
    simp only [Instr.low]
    omega
  | rtcUpdreg r _ v =>
    have hr := RtcReg.code_lt r
    have hv := bitNat_lt v
    simp only [Instr.low]
    omega
  | rtcSetflag f on =>
    have hf := RtcFlag.code_lt f
    have hon := bitNat_lt on
    simp only [Instr.low]
    omega
  | recSetmode v => exact (AlarmMode.code_lt v).trans (by decide)
  | recSetstate v => exact (AlarmState.code_lt v).trans (by decide)
  | recRead c => exact (CacheSel.code_lt c).trans (by decide)
  | stlFlash c => exact (FlashColour.code_lt c).trans (by decide)
  | stlAlarmleds a1 a2 =>
    have h1 := bitNat_lt a1
    have h2 := bitNat_lt a2
    simp only [Instr.low]
    omega
  | stripNudge sel up =>
    have hsel := StripSel.code_lt sel
    have hup := bitNat_lt up
    simp only [Instr.low]
    omega
  | _ =>
    unfold Instr.low
    simp only [lowT, lowX]
    omega

/-! ### The tables of codes, from the code -/

theorem sixOfCode_eq_some_iff {n : Nat} {k : Fin 6} : sixOfCode n = some k ↔ k.val = n := by
  constructor
  · intro h
    unfold sixOfCode at h
    split at h
    · exact congrArg Fin.val (Option.some.inj h).symm
    · cases h
  · rintro rfl
    exact sixOfCode_val k

theorem RtcReg.ofCode_eq_some_iff {n : Nat} {r : RtcReg} : RtcReg.ofCode n = some r ↔ r.code = n := by
  constructor
  · intro h
    unfold RtcReg.ofCode at h
    split at h <;> cases h <;> rfl
  · rintro rfl
    exact r.ofCode_code

theorem RtcFlag.ofCode_eq_some_iff {n : Nat} {f : RtcFlag} : RtcFlag.ofCode n = some f ↔ f.code = n := by
  constructor
  · intro h
    unfold RtcFlag.ofCode at h
    split at h <;> cases h <;> rfl
  · rintro rfl
    exact f.ofCode_code

theorem CacheSel.ofCode_eq_some_iff {n : Nat} {c : CacheSel} : CacheSel.ofCode n = some c ↔ c.code = n := by
  constructor
  · intro h
    unfold CacheSel.ofCode at h
    split at h <;> cases h <;> rfl
  · rintro rfl
    exact c.ofCode_code

theorem FlashColour.ofCode_eq_some_iff {n : Nat} {c : FlashColour} :
    FlashColour.ofCode n = some c ↔ c.code = n := by
  constructor
  · intro h
    unfold FlashColour.ofCode at h
    split at h <;> cases h <;> rfl
  · rintro rfl
    exact c.ofCode_code

/-- A digit or a channel is named by 0 to 5 (R57, R65, R66, R72). -/
theorem le_five_iff_sixOfCode {n : Nat} : n ≤ 5 ↔ ∃ k, sixOfCode n = some k := by
  simp only [sixOfCode_eq_some_iff]
  exact ⟨fun h => ⟨⟨n, by omega⟩, rfl⟩, fun ⟨k, h⟩ => by omega⟩

/-- A register is named by 0 to 17 (R35, R72). -/
theorem le_seventeen_iff_ofCode {n : Nat} : n ≤ 17 ↔ ∃ r, RtcReg.ofCode n = some r := by
  constructor
  · intro h
    interval_cases n <;> exact ⟨_, rfl⟩
  · rintro ⟨r, h⟩
    have hr := RtcReg.code_lt r
    have hn := RtcReg.ofCode_eq_some_iff.mp h
    omega

/-- A flag is named by 0 to 6 (R112, R72). -/
theorem le_six_iff_ofCode {n : Nat} : n ≤ 6 ↔ ∃ f, RtcFlag.ofCode n = some f := by
  constructor
  · intro h
    interval_cases n <;> exact ⟨_, rfl⟩
  · rintro ⟨f, h⟩
    have hf := RtcFlag.code_lt f
    have hn := RtcFlag.ofCode_eq_some_iff.mp h
    omega

/-- Of the 2-bit codes only 3 names no cache (R148, R72). -/
theorem ne_three_iff_ofCode {n : Nat} (hn : n < 4) : n ≠ 3 ↔ ∃ c, CacheSel.ofCode n = some c := by
  constructor
  · intro h
    interval_cases n
    · exact ⟨.clock, rfl⟩
    · exact ⟨.al1, rfl⟩
    · exact ⟨.al2, rfl⟩
    · exact absurd rfl h
  · rintro ⟨c, h⟩ rfl
    cases h

/-- A colour is named by 1 and by 2 (R68, R72). -/
theorem eq_one_or_two_iff_ofCode {n : Nat} : n = 1 ∨ n = 2 ↔ ∃ c, FlashColour.ofCode n = some c := by
  constructor
  · rintro (rfl | rfl) <;> exact ⟨_, rfl⟩
  · rintro ⟨c, h⟩
    rw [← FlashColour.ofCode_eq_some_iff.mp h]
    cases c <;> decide

/-- Every 2-bit value is the code of an AlarmMode (R63, R143). -/
theorem AlarmMode.code_ofCode {n : Nat} (h : n < 4) : (AlarmMode.ofCode n).code = n := by
  interval_cases n <;> rfl

/-- Every 2-bit value is the code of an AlarmState (R63, R144). -/
theorem AlarmState.code_ofCode {n : Nat} (h : n < 4) : (AlarmState.ofCode n).code = n := by
  interval_cases n <;> rfl

theorem StripSel.code_ofBit (b : Bool) : (StripSel.ofBit b).code = bitNat b := by cases b <;> rfl

theorem StripSel.ofBit_of_bits {w : Command} {j : Nat} {sel : StripSel} (h : bits w j j = sel.code) :
    StripSel.ofBit (bitAt w j) = sel := by
  unfold bitAt
  rw [h]
  cases sel <;> rfl

/-! ### The checks -/

@[simp] theorem reservedUnless_true (d : Decoded) : reservedUnless true d = d := rfl

@[simp] theorem reservedUnless_false (d : Decoded) : reservedUnless false d = .reserved .reservedBit := rfl

@[simp] theorem withIndex_some {α : Type} (a : α) (k : α → Decoded) : withIndex (some a) k = k a := rfl

@[simp] theorem withIndex_none {α : Type} (k : α → Decoded) :
    withIndex none k = .reserved .indexOutOfTable := rfl

end Sys2Proof
end

section
/-! SUPPORT. Format by format, a word whose bits 25:0 are those of an instruction is read back as that
instruction (R56 to R69). -/

namespace Sys2Proof

open Sys2Proof.Laws.TableWord

variable {w : Command}

theorem decodeN_of_low {i : Instr} (h : bits w 25 0 = 0) : decodeN w i = .instr i := by
  simp [decodeN, h]

theorem decodeG_of_low {k : Fin 6} {seg : BitVec 14} {dots ub lb : Bool}
    (h : bits w 25 0 = (Instr.dspWrgrid k seg dots ub lb).low) :
    decodeG w .dspWrgrid = .instr (.dspWrgrid k seg dots ub lb) := by
  have hdots := bitNat_lt dots
  have hub := bitNat_lt ub
  have hlb := bitNat_lt lb
  obtain ⟨hzero, hk, hseg, h14, h15, h16⟩ :
      bits w 22 17 = 0 ∧ bits w 25 23 = k.val ∧ bits w 13 0 = seg.toNat ∧ bits w 14 14 = bitNat dots ∧
        bits w 15 15 = bitNat ub ∧ bits w 16 16 = bitNat lb := by
    simp only [Instr.low, bits] at h ⊢
    omega
  simp [decodeG, hzero, hk, hseg, bitAt_of_bits h14, bitAt_of_bits h15, bitAt_of_bits h16]

theorem decodeB_of_low {pct : BitVec 7} (h : bits w 25 0 = pct.toNat) :
    decodeB w .dspSetbright = .instr (.dspSetbright pct) := by
  obtain ⟨hzero, hpct⟩ : bits w 25 7 = 0 ∧ bits w 6 0 = pct.toNat := by
    simp only [bits] at h ⊢
    omega
  simp [decodeB, hzero, hpct]

theorem decodeRread_of_low {r : RtcReg} (h : bits w 25 0 = (Instr.rtcRdreg r).low) :
    decodeRread w .rtcRdreg = .instr (.rtcRdreg r) := by
  have hlt := RtcReg.code_lt r
  obtain ⟨hhigh, hr, hval⟩ : bits w 25 21 = 0 ∧ bits w 20 16 = r.code ∧ bits w 15 0 = 0 := by
    simp only [Instr.low, bits] at h ⊢
    omega
  simp [decodeRread, hhigh, hr, hval]

theorem decodeRwrite_of_low {r : RtcReg} {v : Byte} (h : bits w 25 0 = (Instr.rtcWrreg r v).low) :
    decodeRwrite w .rtcWrreg = .instr (.rtcWrreg r v) := by
  have hlt := RtcReg.code_lt r
  obtain ⟨hhigh, hr, hbit, hv⟩ :
      bits w 25 21 = 0 ∧ bits w 20 16 = r.code ∧ bits w 15 8 = 0 ∧ bits w 7 0 = v.toNat := by
    simp only [Instr.low, bits] at h ⊢
    omega
  simp [decodeRwrite, hhigh, hr, hbit, hv]

theorem decodeRupdate_of_low {r : RtcReg} {b : Fin 8} {v : Bool}
    (h : bits w 25 0 = (Instr.rtcUpdreg r b v).low) :
    decodeRupdate w .rtcUpdreg = .instr (.rtcUpdreg r b v) := by
  have hlt := RtcReg.code_lt r
  have hvlt := bitNat_lt v
  obtain ⟨hhigh, hr, hmid, hb, hval, hv⟩ :
      bits w 25 21 = 0 ∧ bits w 20 16 = r.code ∧ bits w 15 11 = 0 ∧ bits w 10 8 = b.val ∧ bits w 7 1 = 0 ∧
        bits w 0 0 = bitNat v := by
    simp only [Instr.low, bits] at h ⊢
    omega
  simp [decodeRupdate, hhigh, hr, hmid, hb, hval, bitAt_of_bits hv]

theorem decodeT_of_low {mk : BitVec 8 → BitVec 8 → BitVec 8 → Instr} {h m s : BitVec 8}
    (hlow : bits w 25 0 = lowT h m s) : decodeT w mk = .instr (mk h m s) := by
  obtain ⟨hzero, hh, hm, hs⟩ :
      bits w 25 24 = 0 ∧ bits w 23 16 = h.toNat ∧ bits w 15 8 = m.toNat ∧ bits w 7 0 = s.toNat := by
    simp only [lowT, bits] at hlow ⊢
    omega
  simp [decodeT, hzero, hh, hm, hs]

theorem decodeD_of_low {day : BitVec 5} {month : BitVec 4} {year : BitVec 17}
    (h : bits w 25 0 = (Instr.rtcSetdate day month year).low) :
    decodeD w .rtcSetdate = .instr (.rtcSetdate day month year) := by
  obtain ⟨hday, hmonth, hyear⟩ :
      bits w 25 21 = day.toNat ∧ bits w 20 17 = month.toNat ∧ bits w 16 0 = year.toNat := by
    simp only [Instr.low, bits] at h ⊢
    omega
  simp [decodeD, hday, hmonth, hyear]

/-- The Time operand of format X is read back where it is a legal Time (R62). -/
theorem decodeTimeOperand_of_low {mk : BitVec 5 → BitVec 6 → BitVec 6 → Instr} {h : BitVec 5}
    {m s : BitVec 6} {n : Nat} (hlow : bits w 25 0 = lowX h m s n) (hlegal : legalTimeFields h m s = true) :
    decodeTimeOperand w mk = .instr (mk h m s) := by
  obtain ⟨hh, hm, hs⟩ : bits w 16 12 = h.toNat ∧ bits w 11 6 = m.toNat ∧ bits w 5 0 = s.toNat := by
    simp only [lowX, bits] at hlow ⊢
    omega
  simp only [legalTimeFields, Bool.and_eq_true, decide_eq_true_eq] at hlegal
  obtain ⟨⟨hhle, hmle⟩, hsle⟩ := hlegal
  simp [decodeTimeOperand, hh, hm, hs, hhle, hmle, hsle]

theorem decodeX_of_low {mk : BitVec 5 → BitVec 6 → BitVec 6 → BitVec 8 → Instr} {h : BitVec 5}
    {m s : BitVec 6} {n : BitVec 8} (hlow : bits w 25 0 = lowX h m s n.toNat)
    (hlegal : legalTimeFields h m s = true) : decodeX w mk = .instr (mk h m s n) := by
  obtain ⟨hzero, hn⟩ : bits w 17 17 = 0 ∧ bits w 25 18 = n.toNat := by
    simp only [lowX, bits] at hlow ⊢
    omega
  simp [decodeX, hzero, hn, decodeTimeOperand_of_low hlow hlegal]

theorem decodeX0_of_low {h : BitVec 5} {m s : BitVec 6} (hlow : bits w 25 0 = lowX h m s 0)
    (hlegal : legalTimeFields h m s = true) : decodeX0 w .timeNorm5 = .instr (.timeNorm5 h m s) := by
  have hzero : bits w 25 17 = 0 := by
    simp only [lowX, bits] at hlow ⊢
    omega
  simp [decodeX0, hzero, decodeTimeOperand_of_low hlow hlegal]

theorem decodeM_of_low {mk : Nat → Instr} {v : Nat} (h : bits w 25 0 = v) (hv : v < 4) :
    decodeM w mk = .instr (mk v) := by
  obtain ⟨hzero, hval⟩ : bits w 25 2 = 0 ∧ bits w 1 0 = v := by
    simp only [bits] at h ⊢
    omega
  simp [decodeM, hzero, hval]

theorem decodeMread_of_low {c : CacheSel} (h : bits w 25 0 = c.code) :
    decodeMread w .recRead = .instr (.recRead c) := by
  have hlt := CacheSel.code_lt c
  obtain ⟨hzero, hc⟩ : bits w 25 2 = 0 ∧ bits w 1 0 = c.code := by
    simp only [bits] at h ⊢
    omega
  simp [decodeMread, hzero, hc]

theorem decodeF_of_low {f : RtcFlag} {on : Bool} (h : bits w 25 0 = (Instr.rtcSetflag f on).low) :
    decodeF w .rtcSetflag = .instr (.rtcSetflag f on) := by
  have hlt := RtcFlag.code_lt f
  have honlt := bitNat_lt on
  obtain ⟨hhigh, hf, hmid, hon⟩ :
      bits w 25 19 = 0 ∧ bits w 18 16 = f.code ∧ bits w 15 1 = 0 ∧ bits w 0 0 = bitNat on := by
    simp only [Instr.low, bits] at h ⊢
    omega
  simp [decodeF, hhigh, hf, hmid, bitAt_of_bits hon]

theorem decodeP_of_low {mk : Fin 6 → BitVec 16 → Instr} {c : Fin 6} {v : BitVec 16}
    (h : bits w 25 0 = c.val * 2 ^ 22 + v.toNat) : decodeP w mk = .instr (mk c v) := by
  obtain ⟨hzero, hc, hv⟩ : bits w 21 16 = 0 ∧ bits w 25 22 = c.val ∧ bits w 15 0 = v.toNat := by
    simp only [bits] at h ⊢
    omega
  simp [decodeP, hzero, hc, hv]

theorem decodeC_of_low {mk : Fin 6 → Instr} {c : Fin 6} (h : bits w 25 0 = c.val * 2 ^ 22) :
    decodeC w mk = .instr (mk c) := by
  obtain ⟨hzero, hc⟩ : bits w 21 0 = 0 ∧ bits w 25 22 = c.val := by
    simp only [bits] at h ⊢
    omega
  simp [decodeC, hzero, hc]

theorem decodeA_of_low {a1 a2 : Bool} (h : bits w 25 0 = (Instr.stlAlarmleds a1 a2).low) :
    decodeA w .stlAlarmleds = .instr (.stlAlarmleds a1 a2) := by
  have hlt1 := bitNat_lt a1
  have hlt2 := bitNat_lt a2
  obtain ⟨hzero, h1, h2⟩ : bits w 25 2 = 0 ∧ bits w 0 0 = bitNat a1 ∧ bits w 1 1 = bitNat a2 := by
    simp only [Instr.low, bits] at h ⊢
    omega
  simp [decodeA, hzero, bitAt_of_bits h1, bitAt_of_bits h2]

theorem decodeK_of_low {c : FlashColour} (h : bits w 25 0 = c.code) :
    decodeK w .stlFlash = .instr (.stlFlash c) := by
  have hlt := FlashColour.code_lt c
  obtain ⟨hzero, hc⟩ : bits w 25 2 = 0 ∧ bits w 1 0 = c.code := by
    simp only [bits] at h ⊢
    omega
  simp [decodeK, hzero, hc]

theorem decodeS_of_low {sel : StripSel} {up : Bool} (h : bits w 25 0 = (Instr.stripNudge sel up).low) :
    decodeS w .stripNudge = .instr (.stripNudge sel up) := by
  have hlt := StripSel.code_lt sel
  have huplt := bitNat_lt up
  obtain ⟨hzero, hsel, hup⟩ : bits w 25 2 = 0 ∧ bits w 1 1 = sel.code ∧ bits w 0 0 = bitNat up := by
    simp only [Instr.low, bits] at h ⊢
    omega
  simp [decodeS, hzero, StripSel.ofBit_of_bits hsel, bitAt_of_bits hup]

/-- A word with the opcode and the bits 25:0 of a well-formed instruction decodes to it (R55, R70). -/
theorem decodeWord_of_fields (i : Instr) (hwf : i.wellFormed = true) (hop : bits w 31 26 = i.opcode)
    (hlow : bits w 25 0 = i.low) : decodeWord w = .instr i := by
  cases i with
  | dspWrgrid => exact (decodeWord_dspWrgrid w hop).trans (decodeG_of_low hlow)
  | dspSetbright => exact (decodeWord_dspSetbright w hop).trans (decodeB_of_low hlow)
  | dspGetcmp => exact (decodeWord_dspGetcmp w hop).trans (decodeN_of_low hlow)
  | dspEnable => exact (decodeWord_dspEnable w hop).trans (decodeN_of_low hlow)
  | dspDisable => exact (decodeWord_dspDisable w hop).trans (decodeN_of_low hlow)
  | rtcRdreg => exact (decodeWord_rtcRdreg w hop).trans (decodeRread_of_low hlow)
  | rtcWrreg => exact (decodeWord_rtcWrreg w hop).trans (decodeRwrite_of_low hlow)
  | rtcUpdreg => exact (decodeWord_rtcUpdreg w hop).trans (decodeRupdate_of_low hlow)
  | rtcGettime => exact (decodeWord_rtcGettime w hop).trans (decodeN_of_low hlow)
  | rtcSettime => exact (decodeWord_rtcSettime w hop).trans (decodeT_of_low hlow)
  | rtcGetdate => exact (decodeWord_rtcGetdate w hop).trans (decodeN_of_low hlow)
  | rtcSetdate => exact (decodeWord_rtcSetdate w hop).trans (decodeD_of_low hlow)
  | rtcGetal1 => exact (decodeWord_rtcGetal1 w hop).trans (decodeN_of_low hlow)
  | rtcGetal2 => exact (decodeWord_rtcGetal2 w hop).trans (decodeN_of_low hlow)
  | rtcSetal1 => exact (decodeWord_rtcSetal1 w hop).trans (decodeT_of_low hlow)
  | rtcSetal2 => exact (decodeWord_rtcSetal2 w hop).trans (decodeT_of_low hlow)
  | rtcSetflag => exact (decodeWord_rtcSetflag w hop).trans (decodeF_of_low hlow)
  | rtcSelftest => exact (decodeWord_rtcSelftest w hop).trans (decodeN_of_low hlow)
  | recSetmode v =>
    rw [decodeWord_recSetmode w hop, decodeM_of_low (v := v.code) hlow (AlarmMode.code_lt v),
      AlarmMode.ofCode_code]
  | recSetstate v =>
    rw [decodeWord_recSetstate w hop, decodeM_of_low (v := v.code) hlow (AlarmState.code_lt v),
      AlarmState.ofCode_code]
  | recSetclock => exact (decodeWord_recSetclock w hop).trans (decodeT_of_low hlow)
  | recSetal1 => exact (decodeWord_recSetal1 w hop).trans (decodeT_of_low hlow)
  | recSetal2 => exact (decodeWord_recSetal2 w hop).trans (decodeT_of_low hlow)
  | recIsonline => exact (decodeWord_recIsonline w hop).trans (decodeN_of_low hlow)
  | recRead => exact (decodeWord_recRead w hop).trans (decodeMread_of_low hlow)
  | recStatus => exact (decodeWord_recStatus w hop).trans (decodeN_of_low hlow)
  | timeAddh => exact (decodeWord_timeAddh w hop).trans (decodeX_of_low hlow hwf)
  | timeAddm => exact (decodeWord_timeAddm w hop).trans (decodeX_of_low hlow hwf)
  | timeSubh => exact (decodeWord_timeSubh w hop).trans (decodeX_of_low hlow hwf)
  | timeSubm => exact (decodeWord_timeSubm w hop).trans (decodeX_of_low hlow hwf)
  | timeAdds => exact (decodeWord_timeAdds w hop).trans (decodeX_of_low hlow hwf)
  | timeNorm5 => exact (decodeWord_timeNorm5 w hop).trans (decodeX0_of_low hlow hwf)
  | pwmSetduty => exact (decodeWord_pwmSetduty w hop).trans (decodeP_of_low hlow)
  | pwmStart => exact (decodeWord_pwmStart w hop).trans (decodeC_of_low hlow)
  | pwmStop => exact (decodeWord_pwmStop w hop).trans (decodeC_of_low hlow)
  | ledSetlevel => exact (decodeWord_ledSetlevel w hop).trans (decodeP_of_low hlow)
  | stlFrameclr => exact (decodeWord_stlFrameclr w hop).trans (decodeN_of_low hlow)
  | stlAlarmleds => exact (decodeWord_stlAlarmleds w hop).trans (decodeA_of_low hlow)
  | stlFlash => exact (decodeWord_stlFlash w hop).trans (decodeK_of_low hlow)
  | stripToggle => exact (decodeWord_stripToggle w hop).trans (decodeN_of_low hlow)
  | stripNudge => exact (decodeWord_stripNudge w hop).trans (decodeS_of_low hlow)

theorem bits_encode_op (i : Instr) : bits (encode i) 31 26 = i.opcode :=
  bits_packWord_op _ _ i.opcode_lt i.low_lt

theorem bits_encode_low (i : Instr) : bits (encode i) 25 0 = i.low := by
  rw [encode, bits_packWord_low _ _ 25 0 i.opcode_lt i.low_lt (by decide) (by decide), pow_zero, Nat.div_one]
  exact Nat.mod_eq_of_lt i.low_lt

end Sys2Proof
end

section
/-! PROOFS. Decode after encode. -/

namespace Sys2Proof.Proofs

/-- Settles O1: the word of an instruction has its opcode and its low bits, and each format reads its own low
bits back. -/
theorem decodeOfEncode : Obligations.DecodeOfEncode := fun i hwf =>
  decodeWord_of_fields i hwf (bits_encode_op i) (bits_encode_low i)

end Sys2Proof.Proofs
end

section
/-! SUPPORT. What the decoder answers to a word of each format, by the checks of R72 in the order of R169: the
refusal of the first check that fails, and past all of them a well-formed instruction of which the word is the
encoding; and what running a refused word writes (R168). -/

namespace Sys2Proof

open Sys2Proof.Machine

/-- The answer `d` to `w` follows the checks in their order: `zero` for the reserved bits, `index` for the index
fields, `time` for the Time operand (R72, R169). -/
structure Answers (w : Command) (zero index time : Prop) (d : Decoded) : Prop where
  reservedBit : ¬ zero → d = .reserved .reservedBit
  indexOutOfTable : zero → ¬ index → d = .reserved .indexOutOfTable
  illegalTime : zero → index → ¬ time → d = .reserved .illegalTime
  command : zero → index → time → ∃ i, d = .instr i ∧ i.wellFormed = true ∧ encode i = w

/-- What a format fixes of its instructions: the check of their operands, the opcode, and the bits 25:0. -/
structure Instr.HasForm (i : Instr) (wf : Bool) (op low : Nat) : Prop where
  wellFormed : i.wellFormed = wf
  opcode : i.opcode = op
  low : i.low = low

/-- An instruction with the opcode and the bits 25:0 of a word has that word (R55). -/
theorem Instr.HasForm.encode_eq {i : Instr} {wf : Bool} {low : Nat} {w : Command}
    (h : i.HasForm wf (bits w 31 26) low) (hlow : low = bits w 25 0) : encode i = w := by
  obtain ⟨-, hop, hi⟩ := h
  rw [encode, hop, hi, hlow, packWord_bits]

variable {w : Command}

namespace Answers

/-- Past all checks the answer is the instruction. -/
theorem instr {i : Instr} {low : Nat} (h : i.HasForm true (bits w 31 26) low) (hlow : low = bits w 25 0) :
    Answers w True True True (.instr i) where
  reservedBit hzero := absurd trivial hzero
  indexOutOfTable _ hindex := absurd trivial hindex
  illegalTime _ _ htime := absurd trivial htime
  command _ _ _ := ⟨i, rfl, h.wellFormed, h.encode_eq hlow⟩

/-- The reserved bits come first. -/
theorem reservedUnless {zero index time : Prop} {b : Bool} {d : Decoded} (hb : zero ↔ b = true)
    (h : zero → Answers w True index time d) : Answers w zero index time (reservedUnless b d) := by
  cases b with
  | false =>
    have hzero : ¬ zero := fun hz => nomatch hb.mp hz
    exact ⟨fun _ => reservedUnless_false d, fun hz => absurd hz hzero, fun hz => absurd hz hzero,
      fun hz => absurd hz hzero⟩
  | true =>
    have hzero : zero := hb.mpr rfl
    obtain ⟨-, hindex, htime, hcommand⟩ := h hzero
    exact ⟨absurd hzero, fun _ => hindex trivial, fun _ => htime trivial, fun _ => hcommand trivial⟩

/-- Then the index field. -/
theorem withIndex {α : Type} {index time : Prop} {ix : Option α} {k : α → Decoded}
    (hix : index ↔ ∃ a, ix = some a) (h : ∀ a, ix = some a → Answers w True True time (k a)) :
    Answers w True index time (withIndex ix k) := by
  cases ix with
  | none =>
    have hindex : ¬ index := fun hi => nomatch hix.mp hi
    exact ⟨absurd trivial, fun _ _ => withIndex_none k, fun _ hi => absurd hi hindex,
      fun _ hi => absurd hi hindex⟩
  | some a =>
    have hindex : index := hix.mpr ⟨a, rfl⟩
    obtain ⟨-, -, htime, hcommand⟩ := h a rfl
    exact ⟨absurd trivial, fun _ => absurd hindex, fun _ _ => htime trivial trivial,
      fun _ _ => hcommand trivial trivial⟩

/-- Only past all checks is the answer an instruction. -/
theorem wellFormed_and_encode {zero index time : Prop} {i : Instr}
    (h : Answers w zero index time (.instr i)) : i.wellFormed = true ∧ encode i = w := by
  obtain ⟨hreserved, hindex, htime, hcommand⟩ := h
  have hz : zero := by_contra fun hz => nomatch hreserved hz
  have hi : index := by_contra fun hi => nomatch hindex hz hi
  have ht : time := by_contra fun ht => nomatch htime hz hi ht
  obtain ⟨j, hj, hword⟩ := hcommand hz hi ht
  cases hj
  exact hword

end Answers

/-! ### Format by format (R56 to R69) -/

theorem decodeN_answers {i : Instr} (h : i.HasForm true (bits w 31 26) 0) :
    Answers w (bits w 25 0 = 0) True True (decodeN w i) :=
  .reservedUnless beq_iff_eq.symm fun hzero => .instr h hzero.symm

theorem decodeG_answers (hop : bits w 31 26 = 0x01) :
    Answers w (bits w 22 17 = 0) (bits w 25 23 ≤ 5) True (decodeG w .dspWrgrid) :=
  .reservedUnless beq_iff_eq.symm fun hzero => .withIndex le_five_iff_sixOfCode fun k hk =>
    .instr ⟨rfl, hop.symm, rfl⟩ <| by
      simp only [Instr.low, bitNat_bitAt, toNat_ofNat_bits, sixOfCode_eq_some_iff.mp hk]
      simp only [bits] at hzero ⊢
      omega

theorem decodeB_answers (hop : bits w 31 26 = 0x02) :
    Answers w (bits w 25 7 = 0) True True (decodeB w .dspSetbright) :=
  .reservedUnless beq_iff_eq.symm fun hzero => .instr ⟨rfl, hop.symm, rfl⟩ <| by
    simp only [Instr.low, toNat_ofNat_bits]
    simp only [bits] at hzero ⊢
    omega

theorem decodeRread_answers (hop : bits w 31 26 = 0x08) :
    Answers w (bits w 25 21 = 0 ∧ bits w 15 0 = 0) (bits w 20 16 ≤ 17) True (decodeRread w .rtcRdreg) :=
  .reservedUnless (by simp) fun hzero => .withIndex le_seventeen_iff_ofCode fun r hr =>
    .instr ⟨rfl, hop.symm, rfl⟩ <| by
      simp only [Instr.low, RtcReg.ofCode_eq_some_iff.mp hr]
      simp only [bits] at hzero ⊢
      omega

theorem decodeRwrite_answers (hop : bits w 31 26 = 0x09) :
    Answers w (bits w 25 21 = 0 ∧ bits w 15 8 = 0) (bits w 20 16 ≤ 17) True (decodeRwrite w .rtcWrreg) :=
  .reservedUnless (by simp) fun hzero => .withIndex le_seventeen_iff_ofCode fun r hr =>
    .instr ⟨rfl, hop.symm, rfl⟩ <| by
      simp only [Instr.low, toNat_ofNat_bits, RtcReg.ofCode_eq_some_iff.mp hr]
      simp only [bits] at hzero ⊢
      omega

theorem decodeRupdate_answers (hop : bits w 31 26 = 0x0A) :
    Answers w (bits w 25 21 = 0 ∧ bits w 15 11 = 0 ∧ bits w 7 1 = 0) (bits w 20 16 ≤ 17) True
      (decodeRupdate w .rtcUpdreg) :=
  .reservedUnless (by simp [and_assoc]) fun hzero => .withIndex le_seventeen_iff_ofCode fun r hr =>
    .instr ⟨rfl, hop.symm, rfl⟩ <| by
      simp only [Instr.low, bitNat_bitAt, Fin.val_ofNat, RtcReg.ofCode_eq_some_iff.mp hr]
      simp only [bits] at hzero ⊢
      omega

theorem decodeT_answers {mk : BitVec 8 → BitVec 8 → BitVec 8 → Instr}
    (hmk : ∀ h m s, (mk h m s).HasForm true (bits w 31 26) (lowT h m s)) :
    Answers w (bits w 25 24 = 0) True True (decodeT w mk) :=
  .reservedUnless beq_iff_eq.symm fun hzero => .instr (hmk _ _ _) <| by
    simp only [lowT, toNat_ofNat_bits]
    simp only [bits] at hzero ⊢
    omega

theorem decodeD_answers (hop : bits w 31 26 = 0x0E) : Answers w True True True (decodeD w .rtcSetdate) :=
  .instr ⟨rfl, hop.symm, rfl⟩ <| by
    simp only [Instr.low, toNat_ofNat_bits]
    simp only [bits]
    omega

/-- The Time operand comes last (R62, R169); `n` is the format's operand above it. -/
theorem decodeTimeOperand_answers {mk : BitVec 5 → BitVec 6 → BitVec 6 → Instr} {n : Nat}
    (hmk : ∀ h m s, (mk h m s).HasForm (legalTimeFields h m s) (bits w 31 26) (lowX h m s n))
    (hn : n = bits w 25 18) (hzero : bits w 17 17 = 0) :
    Answers w True True (bits w 16 12 ≤ 23 ∧ bits w 11 6 ≤ 59 ∧ bits w 5 0 ≤ 59)
      (decodeTimeOperand w mk) where
  reservedBit hzero := absurd trivial hzero
  indexOutOfTable _ hindex := absurd trivial hindex
  illegalTime _ _ htime := if_neg htime
  command _ _ htime := by
    have hform := hmk (.ofNat 5 (bits w 16 12)) (.ofNat 6 (bits w 11 6)) (.ofNat 6 (bits w 5 0))
    refine ⟨_, if_pos htime, hform.wellFormed.trans ?_, hform.encode_eq ?_⟩
    · simp only [legalTimeFields, toNat_ofNat_bits]
      simp [htime]
    · simp only [lowX, hn, toNat_ofNat_bits]
      simp only [bits] at hzero ⊢
      omega

theorem decodeX_answers {mk : BitVec 5 → BitVec 6 → BitVec 6 → BitVec 8 → Instr}
    (hmk : ∀ h m s n, (mk h m s n).HasForm (legalTimeFields h m s) (bits w 31 26) (lowX h m s n.toNat)) :
    Answers w (bits w 17 17 = 0) True (bits w 16 12 ≤ 23 ∧ bits w 11 6 ≤ 59 ∧ bits w 5 0 ≤ 59)
      (decodeX w mk) :=
  .reservedUnless beq_iff_eq.symm fun hzero =>
    decodeTimeOperand_answers (fun h m s => hmk h m s (BitVec.ofNat 8 (bits w 25 18)))
      (toNat_ofNat_bits w rfl) hzero

theorem decodeX0_answers (hop : bits w 31 26 = 0x25) :
    Answers w (bits w 25 17 = 0) True (bits w 16 12 ≤ 23 ∧ bits w 11 6 ≤ 59 ∧ bits w 5 0 ≤ 59)
      (decodeX0 w .timeNorm5) :=
  .reservedUnless beq_iff_eq.symm fun hzero =>
    decodeTimeOperand_answers (n := 0) (fun _ _ _ => ⟨rfl, hop.symm, rfl⟩)
      (by simp only [bits] at hzero ⊢; omega) (by simp only [bits] at hzero ⊢; omega)

theorem decodeM_answers {mk : Nat → Instr} (hmk : ∀ v < 4, (mk v).HasForm true (bits w 31 26) v) :
    Answers w (bits w 25 2 = 0) True True (decodeM w mk) :=
  .reservedUnless beq_iff_eq.symm fun hzero => .instr (hmk _ (by unfold bits; omega)) <| by
    simp only [bits] at hzero ⊢
    omega

theorem decodeMread_answers (hop : bits w 31 26 = 0x1E) :
    Answers w (bits w 25 2 = 0) (bits w 1 0 ≠ 3) True (decodeMread w .recRead) :=
  .reservedUnless beq_iff_eq.symm fun hzero =>
    .withIndex (ne_three_iff_ofCode (by unfold bits; omega)) fun c hc =>
      .instr ⟨rfl, hop.symm, CacheSel.ofCode_eq_some_iff.mp hc⟩ <| by
        simp only [bits] at hzero ⊢
        omega

theorem decodeF_answers (hop : bits w 31 26 = 0x13) :
    Answers w (bits w 25 19 = 0 ∧ bits w 15 1 = 0) (bits w 18 16 ≤ 6) True (decodeF w .rtcSetflag) :=
  .reservedUnless (by simp) fun hzero => .withIndex le_six_iff_ofCode fun f hf =>
    .instr ⟨rfl, hop.symm, rfl⟩ <| by
      simp only [Instr.low, bitNat_bitAt, RtcFlag.ofCode_eq_some_iff.mp hf]
      simp only [bits] at hzero ⊢
      omega

theorem decodeP_answers {mk : Fin 6 → BitVec 16 → Instr}
    (hmk : ∀ c v, (mk c v).HasForm true (bits w 31 26) (c.val * 2 ^ 22 + v.toNat)) :
    Answers w (bits w 21 16 = 0) (bits w 25 22 ≤ 5) True (decodeP w mk) :=
  .reservedUnless beq_iff_eq.symm fun hzero => .withIndex le_five_iff_sixOfCode fun c hc =>
    .instr (hmk c _) <| by
      simp only [toNat_ofNat_bits, sixOfCode_eq_some_iff.mp hc]
      simp only [bits] at hzero ⊢
      omega

theorem decodeC_answers {mk : Fin 6 → Instr}
    (hmk : ∀ c, (mk c).HasForm true (bits w 31 26) (c.val * 2 ^ 22)) :
    Answers w (bits w 21 0 = 0) (bits w 25 22 ≤ 5) True (decodeC w mk) :=
  .reservedUnless beq_iff_eq.symm fun hzero => .withIndex le_five_iff_sixOfCode fun c hc =>
    .instr (hmk c) <| by
      rw [sixOfCode_eq_some_iff.mp hc]
      simp only [bits] at hzero ⊢
      omega

theorem decodeA_answers (hop : bits w 31 26 = 0x31) :
    Answers w (bits w 25 2 = 0) True True (decodeA w .stlAlarmleds) :=
  .reservedUnless beq_iff_eq.symm fun hzero => .instr ⟨rfl, hop.symm, rfl⟩ <| by
    simp only [Instr.low, bitNat_bitAt]
    simp only [bits] at hzero ⊢
    omega

theorem decodeK_answers (hop : bits w 31 26 = 0x32) :
    Answers w (bits w 25 2 = 0) (bits w 1 0 = 1 ∨ bits w 1 0 = 2) True (decodeK w .stlFlash) :=
  .reservedUnless beq_iff_eq.symm fun hzero => .withIndex eq_one_or_two_iff_ofCode fun c hc =>
    .instr ⟨rfl, hop.symm, FlashColour.ofCode_eq_some_iff.mp hc⟩ <| by
      simp only [bits] at hzero ⊢
      omega

theorem decodeS_answers (hop : bits w 31 26 = 0x39) :
    Answers w (bits w 25 2 = 0) True True (decodeS w .stripNudge) :=
  .reservedUnless beq_iff_eq.symm fun hzero => .instr ⟨rfl, hop.symm, rfl⟩ <| by
    simp only [Instr.low, StripSel.code_ofBit, bitNat_bitAt]
    simp only [bits] at hzero ⊢
    omega

/-! ### Opcode by opcode (R70) -/

/-- One instruction of each opcode, in the order of the opcode map. -/
def oneOfEachOpcode : List Instr :=
  [.dspWrgrid 0 0 false false false, .dspSetbright 0, .dspGetcmp, .dspEnable, .dspDisable, .rtcRdreg .seconds,
    .rtcWrreg .seconds 0, .rtcUpdreg .seconds 0 false, .rtcGettime, .rtcSettime 0 0 0, .rtcGetdate,
    .rtcSetdate 0 0 0, .rtcGetal1, .rtcGetal2, .rtcSetal1 0 0 0, .rtcSetal2 0 0 0, .rtcSetflag .sqw false,
    .rtcSelftest, .recSetmode .off, .recSetstate .off, .recSetclock 0 0 0, .recSetal1 0 0 0, .recSetal2 0 0 0,
    .recIsonline, .recRead .clock, .recStatus, .timeAddh 0 0 0 0, .timeAddm 0 0 0 0, .timeSubh 0 0 0 0,
    .timeSubm 0 0 0 0, .timeAdds 0 0 0 0, .timeNorm5 0 0 0, .pwmSetduty 0 0, .pwmStart 0, .pwmStop 0,
    .ledSetlevel 0 0, .stlFrameclr, .stlAlarmleds false false, .stlFlash .green, .stripToggle,
    .stripNudge .brightness false]

/-- An opcode the map does not leave out is the opcode of an instruction (R70, R72). -/
theorem exists_opcode_eq (hop : bits w 31 26 ∉ unassignedOpcodes) :
    ∃ i : Instr, bits w 31 26 = i.opcode := by
  have hmap : ∀ op < 64, op ∉ unassignedOpcodes → op ∈ oneOfEachOpcode.map Instr.opcode := by decide
  obtain ⟨i, -, hi⟩ := List.mem_map.mp (hmap _ (by unfold bits; omega) hop)
  exact ⟨i, hi.symm⟩

/-- A word with an opcode the map leaves out is refused as unknown (R72 case 1). -/
theorem decodeWord_of_unassigned (hop : bits w 31 26 ∈ unassignedOpcodes) :
    decodeWord w = .reserved .unknownOpcode := by
  delta decodeWord
  generalize bits w 31 26 = op at hop ⊢
  fin_cases hop <;> rfl

/-- The answer to a word of opcode `op` is its format's, once the tables are read at `op` (R70). -/
theorem Answers.of_row {op : Nat} {zero index time : Prop} {d : Decoded} (hop : bits w 31 26 = op)
    (hd : decodeWord w = d) (h : Answers w zero index time d)
    (hrow : bits w 31 26 = op →
        ((∀ f ∈ zeroFields (bits w 31 26), bits w f.1 f.2 = 0) ↔ zero) ∧ (indexInTable w ↔ index) ∧
          (timeOperandLegal w ↔ time) := by
      intro hop
      simp [hop, Instr.opcode, zeroFields, indexInTable, timeOperandLegal]) :
    Answers w (∀ f ∈ zeroFields (bits w 31 26), bits w f.1 f.2 = 0) (indexInTable w) (timeOperandLegal w)
      (decodeWord w) := by
  obtain ⟨hzero, hindex, htime⟩ := hrow hop
  rwa [hzero, hindex, htime, hd]

/-- The answer to every word with an opcode of the map, by the tables of R56 to R72. -/
theorem decodeWord_answers (hop : bits w 31 26 ∉ unassignedOpcodes) :
    Answers w (∀ f ∈ zeroFields (bits w 31 26), bits w f.1 f.2 = 0) (indexInTable w) (timeOperandLegal w)
      (decodeWord w) := by
  obtain ⟨i, hi⟩ := exists_opcode_eq hop
  cases i with
  | dspWrgrid => exact .of_row hi (decodeWord_dspWrgrid w hi) (decodeG_answers hi)
  | dspSetbright => exact .of_row hi (decodeWord_dspSetbright w hi) (decodeB_answers hi)
  | dspGetcmp => exact .of_row hi (decodeWord_dspGetcmp w hi) (decodeN_answers ⟨rfl, hi.symm, rfl⟩)
  | dspEnable => exact .of_row hi (decodeWord_dspEnable w hi) (decodeN_answers ⟨rfl, hi.symm, rfl⟩)
  | dspDisable => exact .of_row hi (decodeWord_dspDisable w hi) (decodeN_answers ⟨rfl, hi.symm, rfl⟩)
  | rtcRdreg => exact .of_row hi (decodeWord_rtcRdreg w hi) (decodeRread_answers hi)
  | rtcWrreg => exact .of_row hi (decodeWord_rtcWrreg w hi) (decodeRwrite_answers hi)
  | rtcUpdreg => exact .of_row hi (decodeWord_rtcUpdreg w hi) (decodeRupdate_answers hi)
  | rtcGettime => exact .of_row hi (decodeWord_rtcGettime w hi) (decodeN_answers ⟨rfl, hi.symm, rfl⟩)
  | rtcSettime =>
    exact .of_row hi (decodeWord_rtcSettime w hi) (decodeT_answers fun _ _ _ => ⟨rfl, hi.symm, rfl⟩)
  | rtcGetdate => exact .of_row hi (decodeWord_rtcGetdate w hi) (decodeN_answers ⟨rfl, hi.symm, rfl⟩)
  | rtcSetdate => exact .of_row hi (decodeWord_rtcSetdate w hi) (decodeD_answers hi)
  | rtcGetal1 => exact .of_row hi (decodeWord_rtcGetal1 w hi) (decodeN_answers ⟨rfl, hi.symm, rfl⟩)
  | rtcGetal2 => exact .of_row hi (decodeWord_rtcGetal2 w hi) (decodeN_answers ⟨rfl, hi.symm, rfl⟩)
  | rtcSetal1 =>
    exact .of_row hi (decodeWord_rtcSetal1 w hi) (decodeT_answers fun _ _ _ => ⟨rfl, hi.symm, rfl⟩)
  | rtcSetal2 =>
    exact .of_row hi (decodeWord_rtcSetal2 w hi) (decodeT_answers fun _ _ _ => ⟨rfl, hi.symm, rfl⟩)
  | rtcSetflag => exact .of_row hi (decodeWord_rtcSetflag w hi) (decodeF_answers hi)
  | rtcSelftest => exact .of_row hi (decodeWord_rtcSelftest w hi) (decodeN_answers ⟨rfl, hi.symm, rfl⟩)
  | recSetmode =>
    exact .of_row hi (decodeWord_recSetmode w hi)
      (decodeM_answers fun _ hv => ⟨rfl, hi.symm, AlarmMode.code_ofCode hv⟩)
  | recSetstate =>
    exact .of_row hi (decodeWord_recSetstate w hi)
      (decodeM_answers fun _ hv => ⟨rfl, hi.symm, AlarmState.code_ofCode hv⟩)
  | recSetclock =>
    exact .of_row hi (decodeWord_recSetclock w hi) (decodeT_answers fun _ _ _ => ⟨rfl, hi.symm, rfl⟩)
  | recSetal1 =>
    exact .of_row hi (decodeWord_recSetal1 w hi) (decodeT_answers fun _ _ _ => ⟨rfl, hi.symm, rfl⟩)
  | recSetal2 =>
    exact .of_row hi (decodeWord_recSetal2 w hi) (decodeT_answers fun _ _ _ => ⟨rfl, hi.symm, rfl⟩)
  | recIsonline => exact .of_row hi (decodeWord_recIsonline w hi) (decodeN_answers ⟨rfl, hi.symm, rfl⟩)
  | recRead => exact .of_row hi (decodeWord_recRead w hi) (decodeMread_answers hi)
  | recStatus => exact .of_row hi (decodeWord_recStatus w hi) (decodeN_answers ⟨rfl, hi.symm, rfl⟩)
  | timeAddh =>
    exact .of_row hi (decodeWord_timeAddh w hi) (decodeX_answers fun _ _ _ _ => ⟨rfl, hi.symm, rfl⟩)
  | timeAddm =>
    exact .of_row hi (decodeWord_timeAddm w hi) (decodeX_answers fun _ _ _ _ => ⟨rfl, hi.symm, rfl⟩)
  | timeSubh =>
    exact .of_row hi (decodeWord_timeSubh w hi) (decodeX_answers fun _ _ _ _ => ⟨rfl, hi.symm, rfl⟩)
  | timeSubm =>
    exact .of_row hi (decodeWord_timeSubm w hi) (decodeX_answers fun _ _ _ _ => ⟨rfl, hi.symm, rfl⟩)
  | timeAdds =>
    exact .of_row hi (decodeWord_timeAdds w hi) (decodeX_answers fun _ _ _ _ => ⟨rfl, hi.symm, rfl⟩)
  | timeNorm5 => exact .of_row hi (decodeWord_timeNorm5 w hi) (decodeX0_answers hi)
  | pwmSetduty =>
    exact .of_row hi (decodeWord_pwmSetduty w hi) (decodeP_answers fun _ _ => ⟨rfl, hi.symm, rfl⟩)
  | pwmStart => exact .of_row hi (decodeWord_pwmStart w hi) (decodeC_answers fun _ => ⟨rfl, hi.symm, rfl⟩)
  | pwmStop => exact .of_row hi (decodeWord_pwmStop w hi) (decodeC_answers fun _ => ⟨rfl, hi.symm, rfl⟩)
  | ledSetlevel =>
    exact .of_row hi (decodeWord_ledSetlevel w hi) (decodeP_answers fun _ _ => ⟨rfl, hi.symm, rfl⟩)
  | stlFrameclr => exact .of_row hi (decodeWord_stlFrameclr w hi) (decodeN_answers ⟨rfl, hi.symm, rfl⟩)
  | stlAlarmleds => exact .of_row hi (decodeWord_stlAlarmleds w hi) (decodeA_answers hi)
  | stlFlash => exact .of_row hi (decodeWord_stlFlash w hi) (decodeK_answers hi)
  | stripToggle => exact .of_row hi (decodeWord_stripToggle w hi) (decodeN_answers ⟨rfl, hi.symm, rfl⟩)
  | stripNudge => exact .of_row hi (decodeWord_stripNudge w hi) (decodeS_answers hi)

/-- A word that decodes has passed every check (R72): its instruction is well formed and encodes back to it. -/
theorem wellFormed_and_encode_of_decodeWord {i : Instr} (h : decodeWord w = .instr i) :
    i.wellFormed = true ∧ encode i = w := by
  have hop : bits w 31 26 ∉ unassignedOpcodes := fun hop => by
    rw [decodeWord_of_unassigned hop] at h
    cases h
  exact (h ▸ decodeWord_answers hop).wellFormed_and_encode

end Sys2Proof

namespace Sys2Proof.Machine

/-- A refused word writes its record and nothing else (R72, R168). -/
theorem State.runWord_of_reserved (s : State) (w : Command) (why : Reserved)
    (h : decodeWord w = .reserved why) : s.runWord w = .next (s.refuse (.reservedEncoding w)) := by
  simp only [State.runWord, h]

end Sys2Proof.Machine
end

section
/-! PROOFS. Encode after decode, and the words that are refused. -/

namespace Sys2Proof.Proofs

open Sys2Proof.Machine

/-- Settles O2: only a word that passes every check decodes, and its instruction has the word's opcode and bits
25:0. -/
theorem encodeOfDecode : Obligations.EncodeOfDecode := fun _ _ => wellFormed_and_encode_of_decodeWord

/-- Settles O4: the decoder's answer follows the checks of its opcode's format, and the opcode is that of the
instruction because the word is its encoding. -/
theorem reservedWordsAreRefused : Obligations.ReservedWordsAreRefused := by
  intro w
  refine ⟨decodeWord_of_unassigned, fun hop => ?_, fun why s h => s.runWord_of_reserved w why h⟩
  obtain ⟨hreserved, hindex, htime, hcommand⟩ := decodeWord_answers hop
  refine ⟨hreserved, fun hz => ⟨hindex hz, fun hi => ⟨htime hz hi, fun ht => ?_⟩⟩⟩
  obtain ⟨i, hdec, -, rfl⟩ := hcommand hz hi ht
  exact ⟨i, hdec, (bits_encode_op i).symm⟩

end Sys2Proof.Proofs
end

section
/-! SUPPORT. The display frame bit by bit (R52), the BCD byte (R11), and a register's byte by its row of R54. -/

namespace Sys2Proof

open Sys2Proof.Laws.TableWord

/-! ### The frame -/

theorem frame_toNat (e : GridEntry) :
    (frame e).toNat = 2 ^ 14 * (bitNat e.lb * 4 + bitNat e.ub * 2 + bitNat e.dots) + e.seg.toNat := by
  have hdots := bitNat_lt e.dots
  have hub := bitNat_lt e.ub
  have hlb := bitNat_lt e.lb
  rw [frame, BitVec.toNat_ofNat]
  omega

/-- The segment bits are the low 14 bits, and the three annotation bits stand above them. -/
theorem frame_getLsbD (e : GridEntry) (j : Nat) :
    (frame e).getLsbD j =
      if j < 14 then e.seg.getLsbD j
      else (bitNat e.lb * 4 + bitNat e.ub * 2 + bitNat e.dots).testBit (j - 14) := by
  rw [BitVec.getLsbD, frame_toNat, Nat.testBit_two_pow_mul_add _ e.seg.isLt, BitVec.getLsbD]

/-- The annotation bits from the lowest: dots, upper bar, lower bar (R52). -/
theorem annotations_testBit : ∀ dots ub lb : Bool,
    (bitNat lb * 4 + bitNat ub * 2 + bitNat dots).testBit 0 = dots ∧
      (bitNat lb * 4 + bitNat ub * 2 + bitNat dots).testBit 1 = ub ∧
        (bitNat lb * 4 + bitNat ub * 2 + bitNat dots).testBit 2 = lb := by decide

/-- The frame stands in bits 16:0 of the entry's `DSP.WRGRID` word (R57). -/
theorem bits_encode_dspWrgrid (k : Fin 6) (e : GridEntry) :
    bits (encode (.dspWrgrid k e.seg e.dots e.ub e.lb)) 16 0 = (frame e).toNat := by
  have hlow := bits_encode_low (.dspWrgrid k e.seg e.dots e.ub e.lb)
  have hdots := bitNat_lt e.dots
  have hub := bitNat_lt e.ub
  have hlb := bitNat_lt e.lb
  rw [frame_toNat]
  simp only [Instr.low, bits] at hlow ⊢
  omega

/-! ### Register bytes -/

theorem bcd_toNat {v : Nat} (h : v ≤ 99) : (bcd v).toNat = v / 10 * 16 + v % 10 := by
  rw [bcd, BitVec.toNat_ofNat]
  omega

theorem bcdValid_iff (b : Byte) : bcdValid b = true ↔ b.toNat / 16 ≤ 9 ∧ b.toNat % 16 ≤ 9 := by
  rw [bcdValid, Bool.and_eq_true, decide_eq_true_eq, decide_eq_true_eq, hiNibble, loNibble]

/-- A BCD register is read through its row of R54. -/
theorem Params.dec_of_decodeForm {p : Params} {r : RtcReg} {f : DecodeForm} (hf : p.decodeForm r = some f)
    (b : Byte) : p.dec r b = f.decode b := by
  rw [Params.dec, hf]

/-- A register without a row holds the raw byte (R54). -/
theorem Params.raw_of_decodeForm_none {p : Params} {r : RtcReg} (hr : p.decodeForm r = none) (b : Byte) :
    p.dec r b = some b.toNat ∧ p.enc r b.toNat = b := by
  refine ⟨by rw [Params.dec, hr], ?_⟩
  cases r with
  | dayOfWeek | control | status | agingOffset | temperatureMsb | temperatureLsb => simp [Params.enc]
  | _ => cases hr

end Sys2Proof
end

section
/-! PROOFS. The frame's layout, and the register byte table. -/

namespace Sys2Proof.Proofs

open Sys2Proof.Machine

/-- Settles O10: the segment bits below the three annotation bits, and bits 16:0 of the word below its digit. -/
theorem frameLayout : Obligations.FrameLayout := by
  intro e
  obtain ⟨hdots, hub, hlb⟩ := annotations_testBit e.dots e.ub e.lb
  refine ⟨fun j hj => ?_, ?_, ?_, ?_, fun k => bits_encode_dspWrgrid k e⟩
  · rw [frame_getLsbD, if_pos hj]
  · exact (frame_getLsbD e 14).trans hdots
  · exact (frame_getLsbD e 15).trans hub
  · exact (frame_getLsbD e 16).trans hlb

/-- Settles O19: the nibbles of a BCD byte, and each register by its row of R54 or, without a row, raw. -/
theorem registerByteFormats : Obligations.RegisterByteFormats := by
  intro p
  refine ⟨fun v hv => ?_, fun b => ⟨bcdValid_iff b, rfl⟩, ?_, fun r hr => ?_⟩
  · rw [bcdValid_iff, bcd_toNat hv]
    omega
  · intro r mask base low high write hrow
    obtain ⟨hform, henc⟩ : p.decodeForm r = some ⟨mask, base, low, high⟩ ∧
        ∀ v, p.enc r v = bcd (v - base) ||| write := by
      simp only [List.mem_cons, Prod.mk.injEq, List.not_mem_nil, or_false] at hrow
      rcases hrow with row | row | row | row | row | row | row | row | row | row | row | row <;>
        obtain ⟨rfl, rfl, rfl, rfl, rfl, rfl⟩ := row <;>
        exact ⟨rfl, fun v => by simp [Params.enc]⟩
    refine ⟨fun b v => ?_, fun v _ _ => henc v⟩
    rw [Params.dec_of_decodeForm hform]
    exact decodeForm_decode _ b v
  · have hnone : p.decodeForm r = none := by fin_cases hr <;> rfl
    exact forall_and.mp (Params.raw_of_decodeForm_none hnone)

end Sys2Proof.Proofs
end

section
/-! SUPPORT. The Time operand of format X as a Time (R62), and what each operation of Time arithmetic does to
the fields and to the time of day (R78 to R83). -/

namespace Sys2Proof.Machine

/-! ### The operand -/

/-- Three fields in range are a Time with those fields (R62). -/
theorem operandTime_fields {h : BitVec 5} {m s : BitVec 6} (hh : h.toNat ≤ 23) (hm : m.toNat ≤ 59)
    (hs : s.toNat ≤ 59) :
    ∃ t, operandTime h m s = some t ∧ t.h.val = h.toNat ∧ t.m.val = m.toNat ∧ t.s.val = s.toNat :=
  ⟨_, operandTime_legal h m s hh hm hs, timeOf_val h.toNat m.toNat s.toNat (by omega)⟩

/-- With a legal operand a `TIME` command answers `f` of it and changes nothing else. -/
theorem State.timeCommand_of_operand {h : BitVec 5} {m sec : BitVec 6} {t : Time}
    (ht : operandTime h m sec = some t) (s : State) (w : Command) (f : Time → Time) :
    s.timeCommand h m sec w f = s.answer (.time (f t)) := by
  rw [State.timeCommand, ht]

theorem legalTimeFields_iff (h : BitVec 5) (m s : BitVec 6) :
    legalTimeFields h m s = true ↔ h.toNat ≤ 23 ∧ m.toNat ≤ 59 ∧ s.toNat ≤ 59 := by
  simp [legalTimeFields, and_assoc]

/-! ### Hours (R78, R80) -/

/-- The field a move by `d` writes: the sum with the non-negative `mod n` (R7). -/
theorem ofNat_wrapped (n : Nat) [NeZero n] (v : Nat) (d : Int) :
    ((Fin.ofNat n (wrapped n v d)).val : Int) = ((v : Int) + d) % n := by
  have hn : (0 : Int) < n := Int.natCast_pos.mpr (NeZero.pos n)
  have hcast : (wrapped n v d : Int) = ((v : Int) + d) % n := Int.toNat_of_nonneg (Int.emod_nonneg _ hn.ne')
  have hlt := Int.emod_lt_of_pos ((v : Int) + d) hn
  rw [Fin.val_ofNat, Nat.mod_eq_of_lt (by omega), hcast]

@[simp] theorem addHours_m (t : Time) (n : Nat) : (addHours t n).m = t.m := rfl

@[simp] theorem addHours_s (t : Time) (n : Nat) : (addHours t n).s = t.s := rfl

@[simp] theorem subHours_m (t : Time) (n : Nat) : (subHours t n).m = t.m := rfl

@[simp] theorem subHours_s (t : Time) (n : Nat) : (subHours t n).s = t.s := rfl

theorem addHours_h (t : Time) (n : Nat) : (addHours t n).h.val = (t.h.val + n) % 24 := by
  have hval : ((addHours t n).h.val : Int) = ((t.h.val : Int) + n) % 24 := ofNat_wrapped 24 _ _
  omega

theorem subHours_h (t : Time) (n : Nat) : ((subHours t n).h.val : Int) = ((t.h.val : Int) - n) % 24 :=
  ofNat_wrapped 24 _ _

/-- Adding hours is time-of-day arithmetic (R78). -/
theorem tod_addHours (t : Time) (n : Nat) : tod (addHours t n) = (tod t + 3600 * n) % 86400 := by
  have hh := addHours_h t n
  have hm := t.m.isLt
  have hs := t.s.isLt
  simp only [tod, addHours_m, addHours_s]
  omega

/-- Subtracting hours is time-of-day arithmetic (R80). -/
theorem tod_subHours (t : Time) (n : Nat) :
    (tod (subHours t n) : Int) = ((tod t : Int) - 3600 * n) % 86400 := by
  have hh := subHours_h t n
  have hm := t.m.isLt
  have hs := t.s.isLt
  simp only [tod, subHours_m, subHours_s]
  omega

/-! ### Minutes (R79, R81) -/

theorem tod_moveMinutes_carry (t : Time) (d : Int) :
    (tod (moveMinutes true t d) : Int) = (tod t + 60 * d) % 86400 :=
  tod_fromTod _

theorem moveMinutes_noCarry_m (t : Time) (d : Int) :
    ((moveMinutes false t d).m.val : Int) = ((t.m.val : Int) + d) % 60 :=
  ofNat_wrapped 60 _ _

/-- The second is kept whether or not the minutes carry: 60 divides both the move and the day. -/
theorem moveMinutes_s (carry : Bool) (t : Time) (d : Int) : (moveMinutes carry t d).s = t.s := by
  cases carry with
  | false => rfl
  | true =>
    have htod := tod_moveMinutes_carry t d
    have hs := t.s.isLt
    have hs' := (moveMinutes true t d).s.isLt
    simp only [tod] at htod
    omega

/-! ### Seconds and the normalisation (R82, R83) -/

theorem tod_addSeconds (t : Time) (n : Nat) : tod (addSeconds t n) = (tod t + n) % 86400 := by
  have h := tod_fromTod (tod t + n)
  rw [addSeconds]
  omega

theorem norm5_m (t : Time) : (norm5 t).m.val = t.m.val - t.m.val % 5 :=
  Nat.mod_eq_of_lt (by omega)

/-- A multiple of 5 is its own lower multiple of 5 (R83). -/
theorem norm5_eq_self {t : Time} (h : t.m.val % 5 = 0) : norm5 t = t := by
  apply tod_inj
  rw [tod, norm5_m, h]
  rfl

theorem norm5_m_mod_five (t : Time) : (norm5 t).m.val % 5 = 0 := by
  rw [norm5_m]
  omega

end Sys2Proof.Machine
end

section
/-! PROOFS. The `TIME` commands, and the laws of Time arithmetic. -/

namespace Sys2Proof.Proofs

open Sys2Proof.Machine

/-- Settles O34: the word is the encoding of a well-formed instruction, and the answer is the operand with its
hour moved. -/
theorem hourArithmetic : Obligations.HourArithmetic := by
  intro s h m sec n hh hm hs
  have hlegal := (legalTimeFields_iff h m sec).mpr ⟨hh, hm, hs⟩
  obtain ⟨t, ht, eh, em, es⟩ := operandTime_fields hh hm hs
  refine ⟨decodeOfEncode (.timeAddh h m sec n) hlegal, decodeOfEncode (.timeSubh h m sec n) hlegal,
    ⟨addHours t n.toNat, congrArg Host.Outcome.next (s.timeCommand_of_operand ht _ _), ?_⟩,
    subHours t n.toNat, congrArg Host.Outcome.next (s.timeCommand_of_operand ht _ _), ?_⟩ <;>
    rw [← eh, ← em, ← es]
  · exact ⟨addHours_h t _, rfl, rfl, tod_addHours t _⟩
  · exact ⟨subHours_h t _, rfl, rfl⟩

/-- Settles O35: both commands move the operand's minutes, ADDM by `n` and SUBM by `-n`. -/
theorem minuteArithmetic : Obligations.MinuteArithmetic := by
  intro s h m sec n hh hm hs
  have hlegal := (legalTimeFields_iff h m sec).mpr ⟨hh, hm, hs⟩
  obtain ⟨t, ht, eh, em, es⟩ := operandTime_fields hh hm hs
  refine ⟨decodeOfEncode (.timeAddm h m sec n) hlegal, decodeOfEncode (.timeSubm h m sec n) hlegal,
    fun i d hid => ⟨moveMinutes s.cfg.timeMinuteCarry t d, ?_, ?_, ?_⟩⟩
  · simp only [List.mem_cons, Prod.mk.injEq, List.not_mem_nil, or_false] at hid
    obtain ⟨rfl, rfl⟩ | ⟨rfl, rfl⟩ := hid
    · exact congrArg Host.Outcome.next (s.timeCommand_of_operand ht _ _)
    · exact congrArg Host.Outcome.next (s.timeCommand_of_operand ht _ _)
  · rw [moveMinutes_s, es]
  · rw [← eh, ← em, ← es]
    cases s.cfg.timeMinuteCarry with
    | true => exact tod_moveMinutes_carry t d
    | false => exact ⟨rfl, moveMinutes_noCarry_m t d⟩

/-- Settles O36: ADDS moves the operand's time of day, and NORM5's word is format X with the count 0. -/
theorem secondsAndNormalisation : Obligations.SecondsAndNormalisation := by
  intro s h m sec n hh hm hs
  have hlegal := (legalTimeFields_iff h m sec).mpr ⟨hh, hm, hs⟩
  obtain ⟨t, ht, eh, em, es⟩ := operandTime_fields hh hm hs
  have hnorm5 : packWord 0x25 (h.toNat * 2 ^ 12 + m.toNat * 2 ^ 6 + sec.toNat) =
      encode (.timeNorm5 h m sec) := by
    simp [encode, Instr.opcode, Instr.low, lowX]
  refine ⟨decodeOfEncode (.timeAdds h m sec n) hlegal,
    hnorm5 ▸ decodeOfEncode (.timeNorm5 h m sec) hlegal,
    ⟨addSeconds t n.toNat, congrArg Host.Outcome.next (s.timeCommand_of_operand ht _ _), ?_⟩,
    norm5 t, congrArg Host.Outcome.next (s.timeCommand_of_operand ht _ _), ?_⟩ <;>
    rw [← eh, ← em, ← es]
  · exact tod_addSeconds t _
  · exact ⟨rfl, norm5_m t, rfl⟩

/-- Settles O37: a Time is determined by its time of day, and each move is a sum modulo 86400 there; normalising
leaves a multiple of 5, and a multiple of 5 is left as it is. -/
theorem timeLaws : Obligations.TimeLaws := by
  intro t n
  have hlt := tod_lt t
  refine ⟨tod_inj _ _ ?_, tod_inj _ _ ?_, tod_inj _ _ ?_, tod_inj _ _ ?_,
    norm5_eq_self (norm5_m_mod_five t), norm5_m_mod_five t, tod_inj _ _ ?_⟩
  · have hsub := tod_subHours t n
    rw [tod_addHours]
    omega
  · have hadd := tod_addHours t n
    have hsub := tod_subHours (addHours t n) n
    omega
  · have hsub := tod_moveMinutes_carry t (-n)
    have hadd := tod_moveMinutes_carry (subMinutes true t n) n
    rw [addMinutes]
    rw [subMinutes] at hadd ⊢
    omega
  · rw [tod_addSeconds]
    omega
  · rw [tod_addHours, tod_addHours]
    omega

end Sys2Proof.Proofs
end

section
/-! SUPPORT. When nothing of the Host's is pending and what phase 2 then leaves of the RTC unit (R39), the fetched
frame (R89), the multiplex step as one update (R86 to R95), and the brightness mapping between its ends (R96). -/

namespace Sys2Proof.Machine

/-! ### The Host's slots -/

/-- Nothing of the Host's is pending exactly when each of its slots is empty (R13, R22). -/
theorem State.hostPending_eq_false_iff (s : State) :
    s.hostPending = false ↔
      (∀ k, s.disp.gridPend.get k = none) ∧ s.rtc.clockPend.host = none ∧ s.rtc.al1Pend.host = none ∧
        s.rtc.al2Pend.host = none := by
  simp [State.hostPending, Display.anyPend, Fin.forall_fin_succ, Six.get, and_assoc]

/-- A pending entry is a pending write of the Host (R13, R39). -/
theorem State.hostPending_of_gridPend {s : State} {k : Fin 6} {e : GridEntry}
    (h : s.disp.gridPend.get k = some e) : s.hostPending = true := by
  by_contra hquiet
  obtain ⟨hgrid, -⟩ := s.hostPending_eq_false_iff.mp (Bool.eq_false_of_not_eq_true hquiet)
  simp [hgrid k] at h

/-- With the Host's slots of the three caches empty, phase 2 leaves the RTC unit as it is (R39). -/
theorem RtcUnit.commit_host_of_none {r : RtcUnit} (hclock : r.clockPend.host = none)
    (hal1 : r.al1Pend.host = none) (hal2 : r.al2Pend.host = none) : r.commit .host = r := by
  have hput (p : Pending) (h : p.host = none) : p.put .host none = p := by rw [Pending.put, ← h]
  simp [RtcUnit.commit, hclock, hal1, hal2, hput]

/-! ### The frame fetched (R89) -/

/-- A written entry with no write pending is shown as it is (R37). -/
theorem State.fetchFrame_of_quiet {s : State} {e : GridEntry}
    (hgrid : s.disp.grid.get s.disp.muxIdx = some e) (hpend : s.disp.gridPend.get s.disp.muxIdx = none) :
    s.fetchFrame = (frame e, s) := by
  simp only [State.fetchFrame, s.readGrid_quiet _ hpend, hgrid]

/-- A written entry with a write pending is shown torn (R40, R191). -/
theorem State.fetchFrame_of_pending {s : State} {x v : GridEntry}
    (hgrid : s.disp.grid.get s.disp.muxIdx = some x) (hpend : s.disp.gridPend.get s.disp.muxIdx = some v) :
    ∃ e, s.fetchFrame.1 = frame e ∧ TornFrom e x v := by
  obtain ⟨e, hread, htorn⟩ := s.readGrid_of_pending _ v hpend
  exact ⟨e, by simp only [State.fetchFrame, hread], htorn x hgrid⟩

/-! ### The multiplex step -/

/-- The frame the multiplex step shifts out: that of the digit it advances to (R88, R89). -/
def State.nextFrame (s : State) : Frame := s.blankDigits.advanceDigit.fetchFrame.1

/-- The pin events of a multiplex step that shows `f` on digit `k` (R95). -/
def muxEvents (k : Fin 6) (f : Frame) : List PinEvent :=
  blankEvents ++ (ShiftOrder.positions .msbFirst).flatMap (shiftEvents f) ++
    [⟨.srStrobe, true⟩, ⟨.srStrobe, false⟩, ⟨.digEn k, true⟩]

/-- The multiplex step in the decided shift order is one update of the display, the pins and the count of free
values (R86 to R95). -/
theorem State.muxStep_eq (s : State) (h : s.cfg.shiftOrder = .msbFirst) :
    ∃ n, s.muxStep =
      { s with
        disp :=
          { s.disp with
            digEn := (Six.fill false).set (nextDigit s.disp.muxIdx) true
            muxIdx := nextDigit s.disp.muxIdx
            srStage := s.nextFrame
            srLatch := s.nextFrame
            srData := s.nextFrame.getLsbD 0
            srClk := false
            srStrobe := false }
        out := { s.out with pins := s.out.pins ++ muxEvents (nextDigit s.disp.muxIdx) s.nextFrame }
        inp := { s.inp with draws := s.inp.draws + n } } := by
  obtain ⟨n, hn⟩ := s.blankDigits.advanceDigit.fetchFrame_snd
  refine ⟨n, ?_⟩
  have hshift := (s.blankDigits.advanceDigit.drawn n).shiftFrame_eq s.nextFrame h
  rw [State.muxStep, hn, ← State.nextFrame, hshift]
  simp [State.enableDigit, State.strobe, State.advanceDigit, State.blankDigits, State.drawn, State.trace,
    State.withDisp, State.withOut, State.withInp, muxEvents]

theorem nextDigit_val (k : Fin 6) : (nextDigit k).val = (k.val + 1) % 6 := rfl

/-- Shifting bits in moves neither the digit index nor the enable, in either shift order. -/
theorem State.shiftBits_keeps_muxIdx_dispEnabled (f : Frame) (l : List Nat) (s : State) :
    (l.foldl (fun s j => s.shiftBit (f.getLsbD j)) s).disp.muxIdx = s.disp.muxIdx ∧
      (l.foldl (fun s j => s.shiftBit (f.getLsbD j)) s).disp.dispEnabled = s.disp.dispEnabled := by
  induction l generalizing s with
  | nil => exact ⟨rfl, rfl⟩
  | cons j l ih => exact ih (s.shiftBit (f.getLsbD j))

/-- A turn of `MuxIsr` with the display on advances the digit and leaves the display on, in either shift order
(R88, R172). -/
theorem State.muxTurn_of_enabled {s : State} (h : s.disp.dispEnabled = true) :
    s.muxTurn.disp.muxIdx = nextDigit s.disp.muxIdx ∧ s.muxTurn.disp.dispEnabled = true := by
  obtain ⟨n, hn⟩ := s.blankDigits.advanceDigit.fetchFrame_snd
  obtain ⟨hidx, hon⟩ := State.shiftBits_keeps_muxIdx_dispEnabled s.nextFrame (ShiftOrder.positions s.cfg.shiftOrder)
    (s.blankDigits.advanceDigit.drawn n)
  rw [State.muxTurn, if_pos h, State.muxStep, hn]
  exact ⟨hidx, hon.trans h⟩

/-! ### The brightness (R96) -/

/-- A percentage outside 1..100 is a no-op. -/
theorem exec_dspSetbright_outside (s : State) {pct : BitVec 7} (h : pct.toNat < 1 ∨ 100 < pct.toNat) :
    exec (.dspSetbright pct) s = .next (s.answer .unit) := by
  rw [exec, execDspSetbright, if_pos h]

/-- A percentage in 1..100 sets the compare value. -/
theorem exec_dspSetbright_inside (s : State) {pct : BitVec 7} (h : ¬(pct.toNat < 1 ∨ 100 < pct.toNat)) :
    exec (.dspSetbright pct) s =
      .next ((s.withDisp { s.disp with brightCmp := brightValue s.cfg pct.toNat }).answer .unit) := by
  rw [exec, execDspSetbright, if_neg h]

/-- Ninety-nine 99ths of `d` are `d`. -/
theorem tdiv_ninetyNine_mul (d : Int) : Int.tdiv (99 * d) 99 = d := Int.mul_tdiv_cancel_left d (by decide)

/-- `k` 99ths of `d`, truncated toward zero, lie between 0 and `d`, on whichever side of 0 it is. -/
theorem tdiv_ninetyNine_between {k : Int} (hk : 0 ≤ k) (hk99 : k ≤ 99) (d : Int) :
    min 0 d ≤ Int.tdiv (k * d) 99 ∧ Int.tdiv (k * d) 99 ≤ max 0 d := by
  have hmono {x y : Int} (h : x ≤ y) : x.tdiv 99 ≤ y.tdiv 99 := Int.tdiv_le_tdiv (by decide) h
  have hzero : Int.tdiv 0 99 = 0 := Int.zero_tdiv 99
  have hall := tdiv_ninetyNine_mul d
  rcases le_total 0 d with hd | hd
  · have hlow := hmono (mul_nonneg hk hd)
    have hhigh := hmono (mul_le_mul_of_nonneg_right hk99 hd)
    omega
  · have hlow := hmono (mul_le_mul_of_nonpos_right hk99 hd)
    have hhigh := hmono (mul_nonpos_of_nonneg_of_nonpos hk hd)
    omega

/-- In 1..100 the compare value is the linear mapping, never below 0 before it is stored, and between the ends
(R96). -/
theorem brightValue_linear (p : Params) {pct : Nat} (h1 : 1 ≤ pct) (h100 : pct ≤ 100) :
    (brightValue p pct : Int) =
        p.cmpAt1 + Int.tdiv (((pct : Int) - 1) * ((p.cmpAt100 : Int) - p.cmpAt1)) 99 ∧
      min p.cmpAt1 p.cmpAt100 ≤ brightValue p pct ∧ brightValue p pct ≤ max p.cmpAt1 p.cmpAt100 := by
  obtain ⟨hlow, hhigh⟩ := tdiv_ninetyNine_between (k := (pct : Int) - 1) (by omega) (by omega)
    ((p.cmpAt100 : Int) - p.cmpAt1)
  unfold brightValue
  omega

theorem brightValue_one (p : Params) : brightValue p 1 = p.cmpAt1 := by simp [brightValue]

theorem brightValue_hundred (p : Params) : brightValue p 100 = p.cmpAt100 := by
  have hall := tdiv_ninetyNine_mul ((p.cmpAt100 : Int) - p.cmpAt1)
  simp only [brightValue]
  norm_num [hall]

end Sys2Proof.Machine
end

section
/-! PROOFS. The display unit: the two-phase write, the shift register, the multiplex step and the brightness. -/

namespace Sys2Proof.Proofs

open Sys2Proof.Machine

/-- Settles O9: phase 1 leaves one slot of the Host pending, so its next turn is phase 2, which commits that slot
and no other. -/
theorem wrgridIsTwoPhase : Obligations.WrgridIsTwoPhase := by
  intro s idx seg dots ub lb
  refine ⟨decodeOfEncode (.dspWrgrid idx seg dots ub lb) rfl, _, rfl, rfl, fun hquiet as => ?_⟩
  obtain ⟨hgridPend, hclock, hal1, hal2⟩ := s.hostPending_eq_false_iff.mp hquiet
  let t := (s.pendGrid idx ⟨seg, dots, ub, lb⟩).answer .unit
  have hpend : t.hostPending = true := State.hostPending_of_gridPend (Six.get_set_same _ idx _)
  obtain ⟨u, hstep, hgrid, hnone, -, hrtc, -, hled, -, -⟩ :=
    hostPhaseTwo (t.withInp { t.inp with sched := .host :: as }) as rfl hpend
  have hcommit : s.rtc.commit .host = s.rtc := RtcUnit.commit_host_of_none hclock hal1 hal2
  refine ⟨u, hstep, ?_, hnone idx, fun k hk => ?_, hrtc.trans hcommit, hled⟩
  · simp [hgrid idx, t]
  · simp [hgrid k, t, Six.get_set_other _ idx k _ hk, hgridPend k]

/-- Settles O12: one shift bit by bit, and the seventeen of a frame as one update. -/
theorem shiftBitShiftsIn : Obligations.ShiftBitShiftsIn := by
  intro s horder
  refine ⟨fun b => ?_, fun f => ?_⟩
  · have hstage (j : Nat) : (s.shiftBit b).disp.srStage.getLsbD j =
        if j = 0 then b else decide (j < 17) && s.disp.srStage.getLsbD (j - 1) := by
      rw [← shiftIn_getLsbD, ← horder]
      rfl
    refine ⟨_, rfl, rfl, rfl, hstage 0, fun j hj => ?_, rfl, rfl⟩
    have hj17 : j + 1 < 17 := by omega
    rw [hstage, if_neg j.succ_ne_zero, decide_eq_true hj17, Bool.true_and, Nat.add_sub_cancel]
  · rw [s.shiftFrame_eq f horder]
    exact ⟨rfl, rfl⟩

/-- Settles O13: the turn of `MuxIsr` is one update, and its frame is fetched from the cells as they were. -/
theorem muxStepResult : Obligations.MuxStepResult := by
  intro s as hsched hon horder
  let s1 := s.withInp { s.inp with sched := as }
  have hturn : s1.turn .muxIsr = .next s1.muxStep := congrArg Host.Outcome.next (if_pos hon)
  obtain ⟨n, hn⟩ := s1.muxStep_eq horder
  have hstep : step s = .next s1.muxStep := (step_of_sched s .muxIsr as hsched).trans hturn
  refine ⟨s1.muxStep, nextDigit s.disp.muxIdx, s1.nextFrame, n, hstep, nextDigit_val _, fun e hgrid hpend => ?_,
    fun x v hgrid hpend => ?_, ?_⟩
  · exact congrArg Prod.fst (State.fetchFrame_of_quiet (s := s1.blankDigits.advanceDigit) hgrid hpend)
  · obtain ⟨e, hframe, hseg, hdots, hub, hlb⟩ :=
      State.fetchFrame_of_pending (s := s1.blankDigits.advanceDigit) hgrid hpend
    exact ⟨e, hframe, hseg, hdots, hub, hlb⟩
  · rw [hn]
    exact ⟨rfl, rfl, rfl, rfl, rfl, rfl⟩

/-- Settles O14, by induction on the number of steps: each advances the digit by one and leaves the display on. -/
theorem sixStepsVisitEveryDigit : Obligations.SixStepsVisitEveryDigit := by
  intro s n hon
  induction n with
  | zero => exact ⟨(Nat.mod_eq_of_lt s.disp.muxIdx.isLt).symm, hon⟩
  | succ n ih =>
    obtain ⟨hidx, hon'⟩ := ih
    obtain ⟨hnext, hstill⟩ := State.muxTurn_of_enabled hon'
    rw [Function.iterate_succ_apply']
    refine ⟨?_, hstill⟩
    rw [hnext, nextDigit_val, hidx]
    omega

/-- Settles O17: inside 1..100 the compare value is `brightValue`, outside the state is only answered. -/
theorem setbrightAndGetcmp : Obligations.SetbrightAndGetcmp := by
  intro s pct
  refine ⟨decodeOfEncode (.dspSetbright pct) rfl, decodeOfEncode .dspGetcmp rfl, rfl, ?_⟩
  by_cases hout : pct.toNat < 1 ∨ 100 < pct.toNat
  · exact ⟨_, exec_dspSetbright_outside s hout, rfl, fun _ => rfl, fun h1 h100 => absurd hout (by omega)⟩
  · refine ⟨_, exec_dspSetbright_inside s hout, rfl, fun h => absurd h hout, fun h1 h100 => ?_⟩
    obtain ⟨hlinear, hlow, hhigh⟩ := brightValue_linear s.cfg h1 h100
    refine ⟨hlinear, hlow, hhigh, fun h => ?_, fun h => ?_⟩
    · exact (congrArg (brightValue s.cfg) h).trans (brightValue_one s.cfg)
    · exact (congrArg (brightValue s.cfg) h).trans (brightValue_hundred s.cfg)

end Sys2Proof.Proofs
end

section
/-! SUPPORT. What a command of the RTC client leaves behind after its transaction: the answer recorded with the
traffic, or a getter's outcome (R110); and the operands and bytes of the setters (R54, R111). -/

namespace Sys2Proof.Machine

/-! ### The end of a command whose transaction is done -/

namespace State.BusOnly

variable {s t : State} {xs : List BusItem}

/-- An answer after the traffic records that answer and the traffic, and no cell is written. -/
theorem answer (h : s.BusOnly t xs) (v : Value) :
    s.SameCells (t.answer v) ∧ s.Recorded (t.answer v) (.result v) xs := by
  refine ⟨h.cells, ?_⟩
  rw [State.Recorded, State.answer_out, h.out]

/-- The command that answers its transaction's Boolean. -/
theorem answerBool {r : Bool × State} {b : Bool} (h : r.1 = b ∧ s.BusOnly r.2 xs) :
    s.SameCells (State.answerBool r) ∧ s.Recorded (State.answerBool r) (.result (.bool b)) xs := by
  obtain ⟨rfl, hbus⟩ := h
  exact hbus.answer _

/-- A getter ends by what its answer stands for (R110), and records nothing else but the traffic. -/
theorem answerFetched {α : Type} (h : s.BusOnly t xs) (v : Option α → Value) (f : Fetched α) :
    s.SameCells (t.answerFetched v f) ∧ s.GetterEnds (t.answerFetched v f) v f ∧
      (t.answerFetched v f).out.refused = s.out.refused ∧ (t.answerFetched v f).out.pins = s.out.pins ∧
      (t.answerFetched v f).out.bus = s.out.bus ++ xs := by
  obtain ⟨hcells, hout, -⟩ := h
  cases f with
  | failed | got a => exact ⟨hcells, by simp [State.GetterEnds, State.answerFetched, hout]⟩
  | bad reg byte => exact ⟨hcells, by simp [State.GetterEnds, State.answerFetched, hout]⟩

end State.BusOnly

/-- What a getter of date, month and year answers (R110). -/
theorem decodeDate_readsAsDate (p : Params) (ans : Option Bytes3) :
    Params.ReadsAsDate p ans (p.decodeDate dateRegs ans) := by
  cases ans with
  | none => rfl
  | some b =>
    simp only [Params.ReadsAsDate, Params.decodeDate, Params.decThen, dateRegs]
    cases p.dec .date b.b1 with
    | none => rfl
    | some d =>
      cases p.dec .monthCentury b.b2 with
      | none => rfl
      | some m => cases p.dec .year b.b3 <;> rfl

/-! ### The setters -/

/-- A bit set, the others kept (R107). -/
theorem setBit_true_getLsbD (b : Byte) (i : Fin 8) (j : Nat) :
    (setBit b i true).getLsbD j = (decide (j = i.val) || b.getLsbD j) := by
  rw [setBit_getLsbD]
  by_cases hj : j = i.val <;> simp [hj]

/-- A setter with valid operands answers its write (R111). -/
theorem State.setterCommand_some {α : Type} (s : State) (a : α) (write : α → Bool × State) :
    s.setterCommand (some a) write = State.answerBool (write a) := rfl

/-- A setter with invalid operands takes one draw of the environment for its Boolean and does nothing else
(R111). -/
theorem State.setterCommand_none {α : Type} (s : State) (write : α → Bool × State) :
    ∃ b, s.setterCommand none write = { s with
      inp := { s.inp with draws := s.inp.draws + 1 }
      out := { s.out with outcome := .result (.bool b) } } := ⟨_, rfl⟩

theorem validDate_iff (day : BitVec 5) (month : BitVec 4) (year : BitVec 17) :
    validDate day month year = true ↔
      1 ≤ day.toNat ∧ day.toNat ≤ 31 ∧ 1 ≤ month.toNat ∧ month.toNat ≤ 12 ∧
        2000 ≤ year.toNat ∧ year.toNat ≤ 2099 := by
  simp only [validDate, Bool.and_eq_true, decide_eq_true_eq, and_assoc]

theorem setterDate_valid {day : BitVec 5} {month : BitVec 4} {year : BitVec 17}
    (hv : validDate day month year = true) :
    setterDate day month year = some ⟨day.toNat, month.toNat, year.toNat⟩ := if_pos hv

theorem setterDate_invalid {day : BitVec 5} {month : BitVec 4} {year : BitVec 17}
    (hv : ¬ validDate day month year = true) : setterDate day month year = none := if_neg hv

/-- The bytes a time write stores (R54, R118). -/
theorem timeItems_timeOf (p : Params) {h m s : Nat} (hv : h < 24 ∧ m < 60 ∧ s < 60) :
    timeItems p (timeOf h m s) =
      [(.seconds, bcd s), (.minutes, bcd m), (.hour, bcd h ||| p.masks.hourWrite)] := by
  obtain ⟨hh, hm, hs⟩ := timeOf_val h m s hv
  simp only [timeItems, Params.enc, hh, hm, hs]

/-- The bytes an alarm write stores; an alarm's hour has no write bits (R54, R122). -/
theorem alarmItems_timeOf (p : Params) (n : AlarmNo) {h m s : Nat} (hv : h < 24 ∧ m < 60 ∧ s < 60) :
    alarmItems p n (timeOf h m s) =
      [((alarmRegs n).r1, bcd s), ((alarmRegs n).r2, bcd m), ((alarmRegs n).r3, bcd h)] := by
  obtain ⟨hh, hm, hs⟩ := timeOf_val h m s hv
  cases n <;> simp only [alarmItems, alarmRegs, Params.enc, hh, hm, hs]

end Sys2Proof.Machine
end

section
/-! PROOFS. The RTC client of the Host: raw access, one bit, the getters and the setters. -/

namespace Sys2Proof.Proofs

open Sys2Proof.Machine

/-- Settles O20: each is one bus primitive and its answer. -/
theorem rawRegisterAccessAndProbe : Obligations.RawRegisterAccessAndProbe := by
  intro s reg val
  refine ⟨decodeOfEncode (.rtcRdreg reg) rfl, decodeOfEncode (.rtcWrreg reg val) rfl,
    decodeOfEncode .rtcSelftest rfl, ⟨_, rfl, ?_⟩, ⟨_, rfl, ?_⟩, ⟨_, rfl, ?_⟩⟩
  · obtain ⟨hbyte, hbus⟩ := s.busRead1_spec reg
    rw [hbyte]
    exact hbus.answer _
  · exact State.BusOnly.answerBool (s.busWrite_spec [(reg, val)])
  · exact State.BusOnly.answerBool s.busProbe_spec

/-- Settles O21: the read-modify-write by its read's answer; `SETFLAG` is the same transaction at the flag's
place. -/
theorem bitUpdates : Obligations.BitUpdates := by
  intro s reg bit v f on
  refine ⟨decodeOfEncode (.rtcUpdreg reg bit v) rfl, decodeOfEncode (.rtcSetflag f on) rfl, ?_, _, rfl, rfl⟩
  obtain ⟨hcells, hrec⟩ := State.BusOnly.answerBool (s.busRmw_spec (s.cfg.rtcAddr reg) bit v)
  refine ⟨_, rfl, hcells, ?_⟩
  cases hread : s.byteAnswer (s.cfg.rtcAddr reg) with
  | none => rwa [hread] at hrec
  | some b =>
    rw [hread] at hrec
    exact ⟨setBit b bit v, setBit_getLsbD b bit v, hrec⟩

/-- Settles O22: the three getters are one read each, of their own registers, decoded alike. -/
theorem timeGetters : Obligations.TimeGetters := by
  refine ⟨decodeOfEncode .rtcGettime rfl, decodeOfEncode .rtcGetal1 rfl, decodeOfEncode .rtcGetal2 rfl,
    fun s i rs hi => ?_⟩
  obtain ⟨r, hexec, hr, hbus, hrs⟩ : ∃ r : Fetched Time × State,
      exec i s = .next (r.2.answerFetched .optTime r.1) ∧ r.1 = s.cfg.decodeTime rs (s.readAnswer rs) ∧
        s.BusOnly r.2 (bracketed (readTraffic s.cfg rs)) ∧
        (rs = timeRegs ∨ rs = alarmRegs .one ∨ rs = alarmRegs .two) := by
    simp only [List.mem_cons, Prod.mk.injEq, List.not_mem_nil, or_false] at hi
    obtain ⟨rfl, rfl⟩ | ⟨rfl, rfl⟩ | ⟨rfl, rfl⟩ := hi
    · exact ⟨s.getTime, rfl, s.getTime_spec.1, s.getTime_spec.2, .inl rfl⟩
    · exact ⟨s.getAlarm .one, rfl, (s.getAlarm_spec .one).1, (s.getAlarm_spec .one).2, .inr (.inl rfl)⟩
    · exact ⟨s.getAlarm .two, rfl, (s.getAlarm_spec .two).1, (s.getAlarm_spec .two).2, .inr (.inr rfl)⟩
  obtain ⟨hcells, hends⟩ := hbus.answerFetched .optTime r.1
  exact ⟨_, r.1, hexec, hcells, hr ▸ decodeTime_readsAs s.cfg rs hrs _, hends⟩

/-- Settles O23: one read of the date registers, decoded. -/
theorem getdateReadsTheDate : Obligations.GetdateReadsTheDate := by
  refine ⟨decodeOfEncode .rtcGetdate rfl, fun s => ?_⟩
  obtain ⟨hr, hbus⟩ := s.getDate_spec
  obtain ⟨hcells, hends⟩ := hbus.answerFetched .optDate s.getDate.1
  exact ⟨_, s.getDate.1, rfl, hcells, hr ▸ decodeDate_readsAsDate s.cfg _, hends⟩

/-- Settles O24: the bytes of the write by R54 where the operands are valid, and the no-op elsewhere. -/
theorem timeAndDateSetters : Obligations.TimeAndDateSetters := by
  intro s h m sec day month year
  refine ⟨decodeOfEncode (.rtcSettime h m sec) rfl, decodeOfEncode (.rtcSetdate day month year) rfl,
    ⟨_, rfl, ?_⟩, ⟨_, rfl, ?_⟩⟩
  · split
    case isTrue hv =>
      rw [setterTime_valid h m sec hv, State.setterCommand_some, State.setTime, timeItems_timeOf s.cfg hv]
      exact State.BusOnly.answerBool (s.busWrite_spec _)
    case isFalse hv =>
      rw [setterTime_invalid h m sec hv]
      exact s.setterCommand_none s.setTime
  · split
    case isTrue hv =>
      rw [setterDate_valid ((validDate_iff day month year).mpr hv), State.setterCommand_some]
      exact State.BusOnly.answerBool (s.busWrite_spec _)
    case isFalse hv =>
      rw [setterDate_invalid (mt (validDate_iff day month year).mp hv)]
      exact s.setterCommand_none s.setDate

/-- Settles O25, for either alarm at once: the time bytes and the mask bit's read-modify-write by the answer to
its read, or the no-op. -/
theorem alarmSetters : Obligations.AlarmSetters := by
  intro s h m sec
  refine ⟨decodeOfEncode (.rtcSetal1 h m sec) rfl, decodeOfEncode (.rtcSetal2 h m sec) rfl,
    fun i rs place hi => ?_⟩
  obtain ⟨n, hexec, rfl, rfl⟩ : ∃ n, exec i s = .next (s.setterCommand (setterTime h m sec) (s.setAlarm n)) ∧
      rs = alarmRegs n ∧ place = s.cfg.maskPlace n := by
    simp only [List.mem_cons, Prod.mk.injEq, List.not_mem_nil, or_false] at hi
    obtain ⟨rfl, rfl, rfl⟩ | ⟨rfl, rfl, rfl⟩ := hi
    · exact ⟨.one, rfl, rfl, rfl⟩
    · exact ⟨.two, rfl, rfl, rfl⟩
  refine ⟨_, hexec, ?_⟩
  split
  case isFalse hv =>
    rw [setterTime_invalid h m sec hv]
    exact s.setterCommand_none (s.setAlarm n)
  case isTrue hv =>
    have hspec := s.setAlarm_spec n (timeOf h.toNat m.toNat sec.toNat)
    rw [alarmItems_timeOf s.cfg n hv] at hspec
    obtain ⟨hcells, hrec⟩ := State.BusOnly.answerBool hspec
    rw [setterTime_valid h m sec hv, State.setterCommand_some]
    refine ⟨hcells, ?_⟩
    simp only [Params.atAddrs, List.map_cons, List.map_nil] at hrec
    split
    case h_1 hmask =>
      rw [hmask] at hrec
      exact ⟨[], false, hrec, rfl, rfl⟩
    case h_2 b hmask =>
      rw [hmask] at hrec
      exact ⟨_, true, hrec, rfl, _, rfl, setBit_true_getLsbD b (s.cfg.maskPlace n).bit⟩

end Sys2Proof.Proofs
end

section
/-! SUPPORT. The `REC` commands of the Host (R143 to R149): a cache setter with valid operands and the no-op, what
a read of a cache takes and shows, and the bits of the status byte. -/

namespace Sys2Proof.Machine

/-! ### The cache setters (R145, R146) -/

/-- With valid operands a cache setter ends as the chip's own setter does, and its slot of the cache is filled
whatever the bus answered. -/
theorem State.setCached_clock_some (s : State) (t : Time) (write : Time → Bool × State) :
    s.setCached .clock (some t) write =
      (State.answerBool (write t)).withRtc
        { (write t).2.rtc with clockPend := { (write t).2.rtc.clockPend with host := some t } } := rfl

/-- With invalid operands a cache setter takes one draw of the environment for its Boolean and does nothing else
(R111). -/
theorem State.setCached_none (s : State) (c : CacheSel) (write : Time → Bool × State) :
    ∃ b, s.setCached c none write = { s with
      inp := { s.inp with draws := s.inp.draws + 1 }
      out := { s.out with outcome := .result (.bool b) } } := ⟨_, rfl⟩

/-- *SetTime* answers as the bus does and writes no cell (R118). -/
theorem State.setTime_spec (s : State) (t : Time) :
    (s.setTime t).1 = s.ackAnswer ∧
      s.BusOnly (s.setTime t).2 (bracketed (writeTraffic s.cfg (timeItems s.cfg t))) :=
  s.busWrite_spec _

/-! ### Reads of a cache (R40, R148) -/

/-- A read of a cache takes some free values and changes nothing else. -/
theorem State.readCache_draws (s : State) (a : Agent) (c : CacheSel) :
    ∃ n, (s.readCache a c).2 = s.drawn n :=
  (s.readCache_snd a c).elim (fun h => ⟨0, h⟩) fun h => ⟨3, h⟩

/-- The Host sees no slot of a cache but that of `RecTask` (R40). -/
theorem Pending.others_host (p : Pending) : p.others .host = p.recTask.toList := rfl

/-- With one value pending from another agent, each field read is by itself the cell's or the pending one's
(R40). -/
theorem State.Sees.of_one {s : State} {a : Agent} {x : CacheSel} {c v : Time} (h : s.Sees a x c)
    (hv : (s.rtc.pend x).others a = [v]) :
    (c.h = (s.rtc.cache x).h ∨ c.h = v.h) ∧ (c.m = (s.rtc.cache x).m ∨ c.m = v.m) ∧
      (c.s = (s.rtc.cache x).s ∨ c.s = v.s) := by
  obtain ⟨hh, hm, hs⟩ := h
  simp only [hv, List.mem_singleton, exists_eq_left] at hh hm hs
  exact ⟨hh, hm, hs⟩

/-! ### The status byte (R149) -/

/-- A bit of a number below its width is the Boolean whose number stands there. -/
theorem getLsbD_ofNat_of_bitNat {n x k : Nat} {b : Bool} (hk : k < n) (h : x / 2 ^ k % 2 = bitNat b) :
    (BitVec.ofNat n x).getLsbD k = b := by
  rw [BitVec.getLsbD_ofNat, decide_eq_true hk, Bool.true_and, Nat.testBit_eq_decide_div_mod_eq, h]
  cases b <;> rfl

/-- The steady values of `recPc` are its three `S_` values (R31). -/
theorem RecPc.steady_eq (pc : RecPc) :
    pc.steady = (decide (pc = .sRead) || decide (pc = .sCommit) || decide (pc = .sEval)) := by
  cases pc <;> rfl

end Sys2Proof.Machine
end

section
/-! PROOFS. The reconciliation commands of the Host. -/

namespace Sys2Proof.Proofs

open Sys2Proof.Machine Sys2Proof.Laws.TableWord

/-- Settles O29: each is one update of the RTC unit, answered. -/
theorem setmodeAndSetstate : Obligations.SetmodeAndSetstate := fun _ mode state =>
  ⟨decodeOfEncode (.recSetmode mode) rfl, decodeOfEncode (.recSetstate state) rfl, rfl, rfl, rfl, rfl⟩

/-- Settles O30: with valid operands the setter's chip write is that of `RTC.SETTIME`, which writes no cell, and
its slot of the clock is then filled. -/
theorem setclockWritesChipAndCache : Obligations.SetclockWritesChipAndCache := by
  intro s h m sec
  refine ⟨decodeOfEncode (.recSetclock h m sec) rfl, _, rfl, ?_⟩
  split
  case isFalse hv =>
    rw [setterTime_invalid h m sec hv]
    exact s.setCached_none .clock s.setTime
  case isTrue hv =>
    let tm := timeOf h.toNat m.toNat sec.toNat
    obtain ⟨hh, hm, hs⟩ := timeOf_val h.toNat m.toNat sec.toNat hv
    obtain ⟨hack, ⟨-, -, hrtc, -⟩, -, -⟩ := s.setTime_spec tm
    have hchip : exec (.rtcSettime h m sec) s = .next (State.answerBool (s.setTime tm)) := by
      rw [← State.setterCommand_some s tm s.setTime, ← setterTime_valid h m sec hv]
      rfl
    rw [setterTime_valid h m sec hv, State.setCached_clock_some, hrtc]
    exact ⟨_, tm, hchip, hh, hm, hs, rfl, congrArg (HostOutcome.result ∘ Value.bool) hack⟩

/-- Settles O32: each part of the status byte by the number that stands there. -/
theorem onlineAndStatusBits : Obligations.OnlineAndStatusBits := by
  intro s
  have hlatch := bitNat_lt s.rtc.trigLatch
  have hsteady := bitNat_lt s.rtc.recPc.steady
  have hready := bitNat_lt s.rtc.ready
  have honline := bitNat_lt s.rtc.online
  have hstate := AlarmState.code_lt s.rtc.alarmState
  have hmode := AlarmMode.code_lt s.rtc.alarmMode
  refine ⟨decodeOfEncode .recIsonline rfl, decodeOfEncode .recStatus rfl, rfl, s.rtc.statusByte, rfl, ?_, ?_,
    getLsbD_ofNat_of_bitNat (by decide) ?_, getLsbD_ofNat_of_bitNat (by decide) ?_, ?_,
    getLsbD_ofNat_of_bitNat (by decide) ?_⟩
  · rw [RtcUnit.statusByte, BitVec.toNat_ofNat]
    omega
  · rw [RtcUnit.statusByte, BitVec.toNat_ofNat]
    omega
  · omega
  · omega
  · rw [← RecPc.steady_eq]
    exact getLsbD_ofNat_of_bitNat (by decide) (by omega)
  · omega

/-- Settles O33: the Host's read takes only free values, and shows the cache and the slot of `RecTask`. -/
theorem recReadMayTear : Obligations.RecReadMayTear := by
  intro s sel
  obtain ⟨n, hn⟩ := s.readCache_draws .host sel
  refine ⟨decodeOfEncode (.recRead sel) rfl, rfl, (s.readCache .host sel).1, n, ?_, fun hquiet => ?_,
    fun v hpend => (s.readCache_sees .host sel).of_one ?_⟩
  · rw [exec, execRecRead, hn]
    rfl
  · rw [s.readCache_quiet .host sel (by rw [Pending.others_host, hquiet]; rfl)]
  · rw [Pending.others_host, hpend]
    rfl

end Sys2Proof.Proofs
end

section
/-! SUPPORT. The turn of `RecTask` taken apart (R126 to R138): what each part of it leaves alone, composed along
the turn; the answer each micro-step branches on; and its two phase-2 steps. -/

namespace Sys2Proof.Machine

/-! ### What a turn of `RecTask` leaves alone -/

/-- The state in which `RecTask`, next on the list, takes its turn. -/
def State.called (s : State) : State := s.withInp { s.inp with sched := s.inp.sched.tail }

@[simp] theorem State.called_rtc (s : State) : s.called.rtc = s.rtc := rfl

/-- Traffic leaves the RTC unit alone. -/
theorem State.BusOnly.rtc_eq {s t : State} {xs : List BusItem} (h : s.BusOnly t xs) : t.rtc = s.rtc :=
  h.cells.2.2.1

/-- Traffic records no fault. -/
theorem State.BusOnly.faults_eq {s t : State} {xs : List BusItem} (h : s.BusOnly t xs) :
    t.out.faults = s.out.faults := by
  rw [h.out]

namespace State.RecOnly

variable {s t u : State} {xs ys : List BusItem}

theorem called (s : State) : s.RecOnly s.called [] :=
  ⟨rfl, rfl, rfl, rfl, rfl, rfl, rfl, rfl, (List.append_nil _).symm⟩

theorem withRtc (h : s.RecOnly t xs) (r : RtcUnit) : s.RecOnly (t.withRtc r) xs := { h with }

theorem takeFault (h : s.RecOnly t xs) (f : FaultRecord) : s.RecOnly (t.takeFault f) xs := { h with }

theorem drawn (h : s.RecOnly t xs) (n : Nat) : s.RecOnly (t.drawn n) xs := { h with }

/-- A transaction adds its traffic (R104). -/
theorem busOnly (h : s.RecOnly t xs) (hbus : t.BusOnly u ys) : s.RecOnly u (xs ++ ys) := by
  obtain ⟨⟨hcfg, hdisp, -, hled, hsched, hwords⟩, hout, -⟩ := hbus
  exact ⟨hcfg.trans h.cfg, hdisp.trans h.disp, hled.trans h.led, hwords.trans h.words,
    hsched.trans h.sched, by rw [hout, h.refused], by rw [hout, h.outcome], by rw [hout, h.pins],
    by rw [hout, h.bus, List.append_assoc]⟩

end State.RecOnly

/-- Where `RecTask` is next and has nothing pending, the step is its micro-step (R48, R126). -/
theorem step_microStep {s : State} {as : List Agent} (hsched : s.inp.sched = .recTask :: as)
    (hpend : s.recPending = false) : step s = .next s.called.microStep := by
  rw [step_recTask s as hsched hpend, State.called, hsched]
  rfl

/-- Where `RecTask` is next and has a write pending, the step is its phase 2 (R48, R126). -/
theorem step_recPhase2 {s : State} {as : List Agent} (hsched : s.inp.sched = .recTask :: as)
    (hpend : s.recPending = true) : step s = .next s.called.recPhase2 := by
  have hcalled : s.called.recPending = true := hpend
  rw [step_of_sched s .recTask as hsched, State.turn, State.recTurn, State.called, hsched]
  rw [State.called, hsched] at hcalled
  exact congrArg Host.Outcome.next (if_pos hcalled)

/-- Each slot of `RecTask` in the unit is empty (R22). -/
def RtcUnit.Idle (r : RtcUnit) : Prop :=
  r.clockPend.recTask = none ∧ r.al1Pend.recTask = none ∧ r.al2Pend.recTask = none

/-- Nothing of `RecTask`'s is pending exactly when each of its slots is empty (R22). -/
theorem State.recPending_eq_false_iff (s : State) : s.recPending = false ↔ s.rtc.Idle := by
  simp [State.recPending, RtcUnit.Idle, and_assoc]

/-- A pending clock is a pending write of `RecTask` (R22). -/
theorem State.recPending_of_clock {s : State} {t : Time} (h : s.rtc.clockPend.recTask = some t) :
    s.recPending = true := by
  simp [State.recPending, h]

/-! ### The initialisation steps (R128 to R131) -/

/-- The rows of R128 to R131: where the micro-program stands, the flag it sets there, to what, and where it goes
on. -/
def initRows : List (RecPc × RtcFlag × Bool × RecPc) :=
  [(.bSqw, .sqw, false, .bInt), (.bInt, .intOut, true, .bA1f), (.bA1f, .a1f, false, .bA2f),
    (.bA2f, .a2f, false, .bRdt)]

theorem State.microStep_init {s : State} {pc next : RecPc} {f : RtcFlag} {on : Bool} (hpc : s.rtc.recPc = pc)
    (hrow : (pc, f, on, next) ∈ initRows) : s.microStep = s.initStep f on next := by
  simp only [initRows, List.mem_cons, Prod.mk.injEq, List.not_mem_nil, or_false] at hrow
  rw [State.microStep, hpc]
  obtain ⟨rfl, rfl, rfl, rfl⟩ | ⟨rfl, rfl, rfl, rfl⟩ | ⟨rfl, rfl, rfl, rfl⟩ | ⟨rfl, rfl, rfl, rfl⟩ := hrow <;>
    rfl

/-- Where the flag's byte is answered, the step goes on. -/
theorem State.initStep_answered {s : State} {f : RtcFlag} {b : Byte} (on : Bool) (next : RecPc)
    (hb : s.byteAnswer (s.cfg.rtcAddr (s.cfg.flagPlace f).reg) = some b) :
    s.initStep f on next = (s.setFlag f on).2.goTo next := by
  refine if_pos ?_
  rw [(s.setFlag_spec f on).1, hb]
  rfl

/-- Where its read fails, the step is the failure step (R127). -/
theorem State.initStep_failed {s : State} {f : RtcFlag} (on : Bool) (next : RecPc)
    (hb : s.byteAnswer (s.cfg.rtcAddr (s.cfg.flagPlace f).reg) = none) :
    s.initStep f on next = (s.setFlag f on).2.bootFail := by
  refine if_neg ?_
  rw [(s.setFlag_spec f on).1, hb]
  exact Bool.false_ne_true

/-! ### The getters of `RecTask` (R132 to R134, R137) -/

section

variable {r : Fetched Time × State}

theorem State.recFetched_got {tm : Time} (h : r.1 = .got tm) : State.recFetched r = (some tm, r.2) := by
  rw [State.recFetched, h]

theorem State.recFetched_failed (h : r.1 = .failed) : State.recFetched r = (none, r.2) := by
  rw [State.recFetched, h]

theorem State.recFetched_bad {reg : RtcReg} {byte : Byte} (h : r.1 = .bad reg byte) :
    State.recFetched r = (none, r.2.takeFault ⟨.recTask, reg, byte⟩) := by
  rw [State.recFetched, h]

end

/-- The faults recorded stand whatever is written to the RTC unit. -/
theorem State.RecGetterFaults.withRtc {s t : State} {f : Fetched Time} (h : s.RecGetterFaults t f)
    (r : RtcUnit) : s.RecGetterFaults (t.withRtc r) f := h

/-- They stand whatever free values are taken. -/
theorem State.RecGetterFaults.drawn {s t : State} {f : Fetched Time} (h : s.RecGetterFaults t f)
    (n : Nat) : s.RecGetterFaults (t.drawn n) f := h

/-- A getter of `RecTask` gives a time exactly where its bytes have values; it leaves the unit to its caller and
records bad data (R134). -/
theorem State.recFetched_spec {s : State} {r : Fetched Time × State} {xs : List BusItem}
    (hrec : s.RecOnly r.2 xs) (hrtc : r.2.rtc = s.rtc) (hfaults : r.2.out.faults = s.out.faults) :
    s.RecOnly (State.recFetched r).2 xs ∧ (State.recFetched r).2.rtc = s.rtc ∧
      s.RecGetterFaults (State.recFetched r).2 r.1 ∧
      ∀ tm, (State.recFetched r).1 = some tm ↔ r.1 = .got tm := by
  cases hf : r.1 with
  | failed =>
    rw [State.recFetched_failed hf]
    exact ⟨hrec, hrtc, hfaults, by simp⟩
  | got tm =>
    rw [State.recFetched_got hf]
    exact ⟨hrec, hrtc, hfaults, by simp⟩
  | bad reg byte =>
    rw [State.recFetched_bad hf]
    exact ⟨hrec.takeFault _, hrtc, congrArg (· ++ _) hfaults, by simp⟩

/-- The getter of three registers that a bootstrap read or the poll takes (R117, R121). -/
def State.getRegs (s : State) (rs : Regs3) : Fetched Time × State :=
  (s.cfg.decodeTime rs (s.busRead3 rs).1, (s.busRead3 rs).2)

theorem State.getRegs_spec (s : State) (rs : Regs3) :
    (s.getRegs rs).1 = s.cfg.decodeTime rs (s.readAnswer rs) ∧
      s.BusOnly (s.getRegs rs).2 (bracketed (readTraffic s.cfg rs)) :=
  ⟨congrArg (s.cfg.decodeTime rs) (s.busRead3_spec rs).1, (s.busRead3_spec rs).2⟩

/-- The rows of R132 and R133: from `r`, the registers the micro-step reads, and the unit once it has kept a time. -/
inductive RtcUnit.ReadRow (r : RtcUnit) : Regs3 → (Time → RtcUnit) → Prop where
  | time (hpc : r.recPc = .bRdt) : r.ReadRow timeRegs fun t => { r with tmpTime := some t, recPc := .bRda1 }
  | alarm1 (hpc : r.recPc = .bRda1) :
    r.ReadRow (alarmRegs .one) fun t => { r with tmpAl1 := some t, recPc := .bRda2 }
  | alarm2 (hpc : r.recPc = .bRda2) :
    r.ReadRow (alarmRegs .two) fun t => { r with tmpAl2 := some t, recPc := .bFix1 }

/-- The registers of a row are seconds, minutes and hours. -/
theorem RtcUnit.ReadRow.regs {r : RtcUnit} {rs : Regs3} {kept : Time → RtcUnit} (h : r.ReadRow rs kept) :
    rs = timeRegs ∨ rs = alarmRegs .one ∨ rs = alarmRegs .two := by
  cases h with
  | time => exact .inl rfl
  | alarm1 => exact .inr (.inl rfl)
  | alarm2 => exact .inr (.inr rfl)

/-- A bootstrap read keeps the time it gets and goes on (R132, R133). -/
theorem State.bootRead_some {r : Option Time × State} {tm : Time} (h : r.1 = some tm)
    (keep : State → Time → State) (next : RecPc) : State.bootRead r keep next = (keep r.2 tm).goTo next := by
  rw [State.bootRead, h]

/-- Without a time it is the failure step (R127). -/
theorem State.bootRead_none {r : Option Time × State} (h : r.1 = none) (keep : State → Time → State)
    (next : RecPc) : State.bootRead r keep next = r.2.bootFail := by
  rw [State.bootRead, h]

/-- The micro-step of a row is its read, and where it goes on it leaves what the row keeps. -/
theorem State.microStep_read {s : State} {rs : Regs3} {kept : Time → RtcUnit} (hrow : s.rtc.ReadRow rs kept) :
    ∃ (keep : State → Time → State) (next : RecPc),
      s.microStep = State.bootRead (State.recFetched (s.getRegs rs)) keep next ∧
        ∀ u t, u.rtc = s.rtc → (keep u t).goTo next = u.withRtc (kept t) := by
  unfold State.microStep
  cases hrow with
  | time hpc => rw [hpc]; exact ⟨_, _, rfl, fun u t hu => by rw [← hu]; rfl⟩
  | alarm1 hpc => rw [hpc]; exact ⟨_, _, rfl, fun u t hu => by rw [← hu]; rfl⟩
  | alarm2 hpc => rw [hpc]; exact ⟨_, _, rfl, fun u t hu => by rw [← hu]; rfl⟩

/-! ### The normalisation (R135) -/

/-- The bytes an alarm write stores; an alarm's hour has no write bits (R54, R122). -/
theorem alarmItems_eq (p : Params) (n : AlarmNo) (t : Time) :
    alarmItems p n t =
      [((alarmRegs n).r1, bcd t.s.val), ((alarmRegs n).r2, bcd t.m.val), ((alarmRegs n).r3, bcd t.h.val)] := by
  cases n <;> rfl

/-- The unit with `t` in the temporary of an alarm (R20). -/
def RtcUnit.withTmpAlarm (r : RtcUnit) (n : AlarmNo) (t : Time) : RtcUnit :=
  match n with
  | .one => { r with tmpAl1 := some t }
  | .two => { r with tmpAl2 := some t }

theorem State.keepAlarm_eq (n : AlarmNo) (s : State) (t : Time) :
    State.keepAlarm n s t = s.withRtc (s.rtc.withTmpAlarm n t) := by
  cases n <;> rfl

/-- Keeping what the temporary already holds changes nothing. -/
theorem RtcUnit.withTmpAlarm_of_tmpAlarm {r : RtcUnit} {n : AlarmNo} {t : Time} (h : r.tmpAlarm n = some t) :
    r.withTmpAlarm n t = r := by
  cases n <;> rw [RtcUnit.withTmpAlarm, ← h] <;> rfl

/-- The rows of R135: where the micro-program stands, the alarm it normalises there, and where it goes on. -/
def fixRows : List (RecPc × AlarmNo × RecPc) := [(.bFix1, .one, .bFix2), (.bFix2, .two, .bCommit)]

/-- The micro-step at `B_FIX1` or `B_FIX2` normalises its alarm, once it is written, and goes on. -/
theorem State.microStep_fix {s : State} {pc next : RecPc} {n : AlarmNo} {t : Time} (hpc : s.rtc.recPc = pc)
    (hrow : (pc, n, next) ∈ fixRows) (htmp : s.rtc.tmpAlarm n = some t) :
    s.microStep = (s.fixAlarm n t).goTo next := by
  rw [← State.fixStep_written s n next t htmp, State.microStep, hpc]
  simp only [fixRows, List.mem_cons, Prod.mk.injEq, List.not_mem_nil, or_false] at hrow
  obtain ⟨rfl, rfl, rfl⟩ | ⟨rfl, rfl, rfl⟩ := hrow <;> rfl

/-- A minute that is a multiple of 5 is left as it is. -/
theorem State.fixAlarm_of_multiple (s : State) (n : AlarmNo) {t : Time} (h : t.m.val % 5 = 0) :
    s.fixAlarm n t = s := if_neg (not_not_intro h)

/-- Any other minute is lowered and written back. -/
theorem State.fixAlarm_of_not_multiple (s : State) (n : AlarmNo) {t : Time} (h : t.m.val % 5 ≠ 0) :
    s.fixAlarm n t = ((s.withRtc (s.rtc.withTmpAlarm n (norm5 t))).setAlarm n (norm5 t)).2 := by
  rw [← State.keepAlarm_eq]
  exact if_pos h

/-- In either case the temporary is normalised, and only traffic is added to that. -/
theorem State.fixAlarm_busOnly {s : State} {n : AlarmNo} {t : Time} (h : s.rtc.tmpAlarm n = some t) :
    ∃ xs, (s.withRtc (s.rtc.withTmpAlarm n (norm5 t))).BusOnly (s.fixAlarm n t) xs := by
  by_cases hm : t.m.val % 5 = 0
  · rw [s.fixAlarm_of_multiple n hm, norm5_eq_self hm, RtcUnit.withTmpAlarm_of_tmpAlarm h]
    exact ⟨[], ⟨rfl, rfl, rfl, rfl, rfl, rfl⟩, by simp, id⟩
  · rw [s.fixAlarm_of_not_multiple n hm]
    exact ⟨_, (State.setAlarm_spec _ n (norm5 t)).2⟩

/-! ### The commits (R136, R138) -/

/-- The first step of `B_COMMIT` with all three temporaries written makes the three pending writes. -/
theorem State.microStep_bCommit {s : State} {x y z : Time} (hpc : s.rtc.recPc = .bCommit)
    (htime : s.rtc.tmpTime = some x) (hal1 : s.rtc.tmpAl1 = some y) (hal2 : s.rtc.tmpAl2 = some z) :
    s.microStep = s.withRtc
      { s.rtc with
        clockPend := { s.rtc.clockPend with recTask := some x }
        al1Pend := { s.rtc.al1Pend with recTask := some y }
        al2Pend := { s.rtc.al2Pend with recTask := some z } } := by
  rw [State.microStep, hpc]
  exact s.commitStep_written x y z htime hal1 hal2

/-- Phase 2 of one pending clock (R138). -/
theorem RtcUnit.commit_recTask_clock {r : RtcUnit} {x : Time} (hclock : r.clockPend.recTask = some x)
    (hal1 : r.al1Pend.recTask = none) (hal2 : r.al2Pend.recTask = none) :
    r.commit .recTask =
      { r with clockTime := x, clockPend := { r.clockPend with recTask := none } } := by
  have hput (p : Pending) (h : p.recTask = none) : p.put .recTask none = p := by rw [Pending.put, ← h]
  rw [RtcUnit.commit, hclock, hal1, hal2, hput _ hal1, hput _ hal2]
  rfl

/-- Phase 2 of all three caches (R136). -/
theorem RtcUnit.commit_recTask_all {r : RtcUnit} {x y z : Time} (hclock : r.clockPend.recTask = some x)
    (hal1 : r.al1Pend.recTask = some y) (hal2 : r.al2Pend.recTask = some z) :
    r.commit .recTask =
      { r with
        clockTime := x
        alarmTime1 := y
        alarmTime2 := z
        clockPend := { r.clockPend with recTask := none }
        al1Pend := { r.al1Pend with recTask := none }
        al2Pend := { r.al2Pend with recTask := none } } := by
  rw [RtcUnit.commit, hclock, hal1, hal2]
  rfl

theorem State.recPhase2_bCommit {s : State} (h : s.rtc.recPc = .bCommit) :
    s.recPhase2 =
      s.withRtc { s.rtc.commit .recTask with online := true, ready := true, recPc := .sRead } := by
  rw [State.recPhase2, h]
  rfl

theorem State.recPhase2_sCommit {s : State} (h : s.rtc.recPc = .sCommit) :
    s.recPhase2 = s.withRtc { s.rtc.commit .recTask with recPc := .sEval } := by
  rw [State.recPhase2, h]
  rfl

/-! ### The poll (R137) -/

/-- A poll that gets a time sets `online` and makes the time the pending clock. -/
theorem State.pollStep_some {s : State} {tm : Time} (h : (State.recFetched s.getTime).1 = some tm) :
    s.pollStep =
      (State.recFetched s.getTime).2.withRtc
        { (State.recFetched s.getTime).2.rtc with
          online := true
          clockPend := { (State.recFetched s.getTime).2.rtc.clockPend with recTask := some tm }
          recPc := .sCommit } := by
  rw [State.pollStep, h]
  rfl

/-- The fallback of a poll without a time, from the state `s` the getter leaves: the clock as read, one second on,
becomes the pending clock, and `online` is cleared. -/
def State.pollFallback (s : State) : State :=
  (s.readCache .recTask .clock).2.withRtc
    { s.rtc with
      online := false
      clockPend := { s.rtc.clockPend with recTask := some (addSeconds (s.readCache .recTask .clock).1 1) }
      recPc := .sCommit }

theorem State.pollStep_none {s : State} (h : (State.recFetched s.getTime).1 = none) :
    s.pollStep = (State.recFetched s.getTime).2.pollFallback := by
  rw [State.pollStep, h, State.pollFallback, ← State.readCache_rtc _ .recTask .clock]
  rfl

/-- What an agent may see of a cache depends on the RTC unit alone. -/
theorem State.Sees.of_rtc_eq {s t : State} {a : Agent} {x : CacheSel} {c : Time} (h : t.Sees a x c)
    (hrtc : t.rtc = s.rtc) : s.Sees a x c := by
  obtain ⟨hh, hm, hs⟩ := h
  rw [hrtc] at hh hm hs
  exact ⟨hh, hm, hs⟩

end Sys2Proof.Machine
end

section
/-! PROOFS. The micro-steps of the reconciliation task. -/

namespace Sys2Proof.Proofs

open Sys2Proof.Machine

/-- Settles O47: each row is one flag set, and the answer to its read decides between going on and the failure
step. -/
theorem bootstrapInitSteps : Obligations.BootstrapInitSteps := by
  intro s as pc next f on hsched hpend hpc hrow
  have hstep : step s = .next (s.called.initStep f on next) :=
    (step_microStep hsched hpend).trans (congrArg Host.Outcome.next (State.microStep_init (s := s.called) hpc hrow))
  obtain ⟨-, hbus⟩ := s.called.setFlag_spec f on
  have hrec : s.RecOnly (s.called.setFlag f on).2 (bracketed (rmwItems
      (s.cfg.rtcAddr (s.cfg.flagPlace f).reg) (s.cfg.flagPlace f).bit (FlagPlace.value (s.cfg.flagPlace f) on)
      (s.byteAnswer (s.cfg.rtcAddr (s.cfg.flagPlace f).reg)))) := (State.RecOnly.called s).busOnly hbus
  cases hb : s.byteAnswer (s.cfg.rtcAddr (s.cfg.flagPlace f).reg) with
  | none =>
    rw [State.initStep_failed (s := s.called) on next hb, State.bootFail, hbus.rtc_eq] at hstep
    rw [hb] at hrec
    exact ⟨_, _, hstep, hrec.withRtc _, hbus.faults_eq, rfl, rfl⟩
  | some b =>
    rw [State.initStep_answered (s := s.called) on next hb, State.goTo, hbus.rtc_eq] at hstep
    rw [hb] at hrec
    exact ⟨_, _, hstep, hrec.withRtc _, hbus.faults_eq, rfl, _, rfl, setBit_getLsbD b _ _⟩

/-- Settles O48: each read is one getter, and whether it gives a time decides between keeping it and the failure
step. -/
theorem bootstrapReads : Obligations.BootstrapReads := by
  intro s as pc rs keep hsched hpend hpc hrow
  have hrow' : s.rtc.ReadRow rs keep := by
    subst hpc
    obtain ⟨hpc, rfl, rfl⟩ | ⟨hpc, rfl, rfl⟩ | ⟨hpc, rfl, rfl⟩ := hrow
    · exact .time hpc
    · exact .alarm1 hpc
    · exact .alarm2 hpc
  obtain ⟨keepIn, next, hmicro, hkeep⟩ := State.microStep_read (s := s.called) hrow'
  obtain ⟨hr, hbus⟩ := s.called.getRegs_spec rs
  obtain ⟨hrec, hrtc, hfaults, hgot⟩ := State.recFetched_spec ((State.RecOnly.called s).busOnly hbus)
    hbus.rtc_eq hbus.faults_eq
  have hreads : Params.ReadsAs s.cfg rs (s.readAnswer rs) (s.called.getRegs rs).1 :=
    hr ▸ decodeTime_readsAs s.cfg rs hrow'.regs _
  have hstep := (step_microStep hsched hpend).trans (congrArg Host.Outcome.next hmicro)
  cases ht : (State.recFetched (s.called.getRegs rs)).1 with
  | some tm =>
    rw [State.bootRead_some ht, hkeep _ tm hrtc] at hstep
    have hf := (hgot tm).mp ht
    rw [hf] at hfaults hreads
    exact ⟨_, .got tm, hstep, hreads, hrec.withRtc _, hfaults, rfl⟩
  | none =>
    rw [State.bootRead_none ht, State.bootFail, hrtc] at hstep
    refine ⟨_, _, hstep, hreads, hrec.withRtc _, hfaults.withRtc _, ?_⟩
    cases hf : (s.called.getRegs rs).1 with
    | got tm => exact absurd ht ((hgot tm).mpr hf ▸ Option.some_ne_none tm)
    | failed | bad => rfl

/-- Settles O49, for either alarm at once: a multiple of 5 is left as it is, and any other minute is lowered in the
temporary before the alarm is written. -/
theorem bootstrapFixesMinutes : Obligations.BootstrapFixesMinutes := by
  intro s as tm hsched hpend n next keep hrow
  obtain ⟨hfix, htmp, hkeep⟩ : (s.rtc.recPc, n, next) ∈ fixRows ∧
      s.rtc.tmpAlarm n = some tm ∧ ∀ x, keep (some x) = { s.rtc.withTmpAlarm n x with recPc := next } := by
    obtain ⟨hpc, htmp, rfl, rfl, rfl⟩ | ⟨hpc, htmp, rfl, rfl, rfl⟩ := hrow
    · exact ⟨by simp [fixRows, hpc], htmp, fun _ => rfl⟩
    · exact ⟨by simp [fixRows, hpc], htmp, fun _ => rfl⟩
  have hstep : step s = .next ((s.called.fixAlarm n tm).goTo next) :=
    (step_microStep hsched hpend).trans
      (congrArg Host.Outcome.next (State.microStep_fix (s := s.called) rfl hfix htmp))
  refine ⟨fun hm => ?_, fun hm => ?_⟩
  · rw [State.fixAlarm_of_multiple _ n hm, State.called, hsched] at hstep
    exact hstep
  · obtain ⟨-, hbus⟩ := (s.called.withRtc (s.rtc.withTmpAlarm n (norm5 tm))).setAlarm_spec n (norm5 tm)
    rw [State.fixAlarm_of_not_multiple _ n hm, State.goTo, State.called_rtc, hbus.rtc_eq] at hstep
    rw [alarmItems_eq] at hbus
    obtain ⟨u, hu, hrtc, hfaults, hrec⟩ : ∃ u, step s = .next u ∧ u.rtc = keep (some (norm5 tm)) ∧
        u.out.faults = s.out.faults ∧ s.RecOnly u (bracketed
          ([.write (s.cfg.rtcAddr (alarmRegs n).r1) (bcd (norm5 tm).s.val),
            .write (s.cfg.rtcAddr (alarmRegs n).r2) (bcd (norm5 tm).m.val),
            .write (s.cfg.rtcAddr (alarmRegs n).r3) (bcd (norm5 tm).h.val)] ++
            rmwItems (s.cfg.maskPlace n).addr (s.cfg.maskPlace n).bit true
              (s.maskAnswer
                [(s.cfg.rtcAddr (alarmRegs n).r1, bcd (norm5 tm).s.val),
                  (s.cfg.rtcAddr (alarmRegs n).r2, bcd (norm5 tm).m.val),
                  (s.cfg.rtcAddr (alarmRegs n).r3, bcd (norm5 tm).h.val)] (s.cfg.maskPlace n).addr))) :=
      ⟨_, hstep, (hkeep _).symm, hbus.faults_eq,
        (((State.RecOnly.called s).withRtc _).busOnly hbus).withRtc _⟩
    refine ⟨u, norm5 tm, ?_⟩
    generalize s.maskAnswer _ _ = answer at hrec ⊢
    cases answer with
    | none => exact ⟨_, hu, rfl, norm5_m tm, rfl, hrtc, hfaults, hrec, rfl⟩
    | some b =>
      exact ⟨_, hu, rfl, norm5_m tm, rfl, hrtc, hfaults, hrec, _, rfl, setBit_true_getLsbD b _⟩

/-- Settles O50: the first step of `B_COMMIT` reads three written temporaries, and the other two are phase 2. -/
theorem recTaskCommits : Obligations.RecTaskCommits := by
  intro s as x y z hsched
  refine ⟨fun hpend hpc htime hal1 hal2 => ?_, fun hpc hclock hal1 hal2 => ?_, fun hpc hclock hal1 hal2 => ?_⟩
  · rw [step_microStep hsched hpend, State.microStep_bCommit (s := s.called) hpc htime hal1 hal2, State.called,
      hsched]
    rfl
  · rw [step_recPhase2 hsched (State.recPending_of_clock hclock), State.recPhase2_bCommit (s := s.called) hpc,
      State.called_rtc, RtcUnit.commit_recTask_all hclock hal1 hal2, State.called, hsched]
    rfl
  · rw [step_recPhase2 hsched (State.recPending_of_clock hclock), State.recPhase2_sCommit (s := s.called) hpc,
      State.called_rtc, RtcUnit.commit_recTask_clock hclock hal1 hal2, State.called, hsched]
    rfl

/-- Settles O51: the poll is one getter, and whether it gives a time decides between it and the fallback. -/
theorem pollOrFallback : Obligations.PollOrFallback := by
  intro s as hsched hpend hpc
  have hcalled : s.called.rtc.recPc = .sRead := hpc
  have hstep : step s = .next s.called.pollStep := by
    rw [step_microStep hsched hpend, State.microStep, hcalled]
  obtain ⟨hr, hbus⟩ := s.called.getTime_spec
  obtain ⟨hrec, hrtc, hfaults, hgot⟩ := State.recFetched_spec ((State.RecOnly.called s).busOnly hbus)
    hbus.rtc_eq hbus.faults_eq
  have hreads : Params.ReadsAs s.cfg timeRegs (s.readAnswer timeRegs) s.called.getTime.1 :=
    hr ▸ decodeTime_readsAs s.cfg timeRegs (.inl rfl) _
  cases ht : (State.recFetched s.called.getTime).1 with
  | some tm =>
    rw [State.pollStep_some ht, hrtc] at hstep
    exact ⟨_, _, tm, hstep, hreads, hrec.withRtc _, hfaults.withRtc _, rfl,
      .inl ⟨tm, (hgot tm).mp ht, rfl, rfl⟩⟩
  | none =>
    rw [State.pollStep_none ht, State.pollFallback, hrtc] at hstep
    obtain ⟨n, hn⟩ := (State.recFetched s.called.getTime).2.readCache_draws .recTask .clock
    rw [hn] at hstep
    exact ⟨_, _, _, hstep, hreads, (hrec.drawn n).withRtc _, (hfaults.drawn n).withRtc _, rfl,
      .inr ⟨fun tm h => absurd ht ((hgot tm).mpr h ▸ Option.some_ne_none tm), rfl, _,
        (State.readCache_sees _ _ _).of_rtc_eq hrtc, tod_addSeconds _ 1⟩⟩

/-- Settles O58: every turn gives a next state, and the invariant says which temporaries have been written where. -/
theorem stepNeverStops : Obligations.StepNeverStops := by
  intro s
  obtain ⟨t, hstep, -⟩ := step_keeps s
  refine ⟨⟨t, hstep⟩, fun hinv => ?_⟩
  have hwritten := hinv.recon.written
  refine ⟨fun hpc => ?_, fun hpc => ?_, fun hpc => ?_⟩ <;>
    simp only [RtcUnit.Written, hpc, Option.isSome_iff_ne_none] at hwritten <;>
    obtain ⟨htime, hal1, hal2⟩ := hwritten
  · exact hal1
  · exact hal2
  · exact ⟨htime, hal1, hal2⟩

end Sys2Proof.Proofs
end

section
/-! SUPPORT. A whole bootstrap pass (R126 to R136): the general oracle's listed answers taken one by one (R103), a
run one step longer, and where a pass stands after each of its turns. -/

namespace Sys2Proof.Machine

/-! ### The oracle's answers in their order (R103) -/

/-- The general oracle answers, and its answers to the reads to come are `reads`. -/
structure State.WillAnswer (s : State) (reads : List (Option Bytes3)) : Prop where
  oracle : s.inp.sim = none
  reads : s.inp.reads = reads

namespace State.WillAnswer

variable {s : State} {x : Option Bytes3} {reads : List (Option Bytes3)}

theorem byteAnswer (h : s.WillAnswer (x :: reads)) (a : Byte) : s.byteAnswer a = x.map (·.b1) := by
  rw [State.byteAnswer, h.oracle, h.reads]
  rfl

theorem readAnswer (h : s.WillAnswer (x :: reads)) (rs : Regs3) : s.readAnswer rs = x := by
  rw [State.readAnswer, h.oracle, h.reads]
  rfl

theorem drive (h : s.WillAnswer reads) (xs : List BusItem) : (s.drive xs).WillAnswer reads := ⟨h.oracle, h.reads⟩

theorem withRtc (h : s.WillAnswer reads) (r : RtcUnit) : (s.withRtc r).WillAnswer reads := ⟨h.oracle, h.reads⟩

theorem called (h : s.WillAnswer reads) : s.called.WillAnswer reads := ⟨h.oracle, h.reads⟩

/-- A transaction of the general oracle is begun by its mark alone (R104). -/
theorem busStart (h : s.WillAnswer reads) : s.busStart = (.oracle, s.drive [.start]) := by
  rw [State.busStart, h.oracle]

/-- A read takes the first answer. -/
theorem askRead (h : s.WillAnswer (x :: reads)) : s.askRead.2.WillAnswer reads := by
  rw [State.askRead, h.reads]
  exact ⟨h.oracle, rfl⟩

/-- The answer to a write is none of those to the reads. -/
theorem askAck (h : s.WillAnswer reads) : s.askAck.2.WillAnswer reads := by
  rw [State.askAck]
  split
  · exact ⟨h.oracle, h.reads⟩
  · exact ⟨h.oracle, h.reads⟩

theorem busRead3 (h : s.WillAnswer (x :: reads)) (rs : Regs3) : (s.busRead3 rs).2.WillAnswer reads := by
  rw [State.busRead3, State.transaction, h.busStart]
  exact (((h.drive _).drive _).askRead).drive _

theorem busRmw (h : s.WillAnswer (x :: reads)) (a : Byte) (i : Fin 8) (v : Bool) :
    (s.busRmw a i v).2.WillAnswer reads := by
  have hread := ((h.drive [.start]).drive [.read a]).askRead
  rw [State.busRmw, State.transaction, h.busStart]
  refine State.WillAnswer.drive ?_ _
  rw [State.rmwBit]
  split
  · exact hread
  · exact (hread.drive _).askAck

end State.WillAnswer

/-! ### What a read stands for -/

/-- Bytes that stand for a Time decode to it (R110). -/
theorem decodeTime_of_readsAs_got {p : Params} {rs : Regs3} {ans : Option Bytes3} {t : Time}
    (h : Params.ReadsAs p rs ans (.got t)) : p.decodeTime rs ans = .got t := by
  cases ans with
  | none => cases h
  | some b =>
    unfold Params.ReadsAs at h
    split at h
    case h_2 hb =>
      obtain rfl := Option.some.inj hb
      split at h
      case h_4 h1 h2 h3 =>
        obtain ⟨u, hu, rfl, rfl, rfl⟩ := h
        obtain rfl := Fetched.got.inj hu
        simp only [Params.decodeTime, Params.decThen, h1, h2, h3]
        simp [timeOf]
      all_goals cases h
    case h_1 => cases h

/-! ### Where a pass stands -/

/-- A run that gives a state runs on by the step from there. -/
theorem core_run_succ {M : Host.Core} {n : Nat} {s t u : M.State} (hrun : M.run n s = .next t)
    (hstep : M.step t = .next u) : M.run (n + 1) s = .next u := by
  induction n generalizing s with
  | zero =>
    obtain rfl := Host.Outcome.next.inj hrun
    simp only [Host.Core.run, hstep]
  | succ n ih =>
    unfold Host.Core.run at hrun ⊢
    cases hs : M.step s with
    | next s' =>
      rw [hs] at hrun
      exact ih hrun
    | fault | refused =>
      rw [hs] at hrun
      cases hrun

/-- A run of `n` steps from `s`, all of them turns of `RecTask`, stands at `t`: the next `k` turns are its too and
then come `as`, its unit is `r`, and nothing else of the block has changed. -/
structure State.PassAt (s : State) (as : List Agent) (n k : Nat) (r : RtcUnit) (t : State) : Prop where
  run : Sys2Proof.core.run n s = .next t
  sched : t.inp.sched = List.replicate k .recTask ++ as
  rtc : t.rtc = r
  disp : t.disp = s.disp
  led : t.led = s.led
  cfg : t.cfg = s.cfg
  faults : t.out.faults = s.out.faults

namespace State.PassAt

variable {s t u : State} {as : List Agent} {n k : Nat} {r : RtcUnit} {x : Time}
  {reads : List (Option Bytes3)}

/-- A pass goes on by a step that records no fault. -/
theorem step {xs : List BusItem} (h : s.PassAt as n (k + 1) r t) (hstep : Machine.step t = .next u)
    (hrec : t.RecOnly u xs) (hfaults : u.out.faults = t.out.faults) : s.PassAt as (n + 1) k u.rtc u where
  run := core_run_succ (M := Sys2Proof.core) h.run hstep
  sched := by rw [hrec.sched, h.sched]; rfl
  rtc := rfl
  disp := hrec.disp.trans h.disp
  led := hrec.led.trans h.led
  cfg := hrec.cfg.trans h.cfg
  faults := hfaults.trans h.faults

/-- With nothing pending its step is the micro-step (R126). -/
theorem microStep (h : s.PassAt as n (k + 1) r t) (hidle : r.Idle) :
    Machine.step t = .next t.called.microStep :=
  step_microStep h.sched (t.recPending_eq_false_iff.mpr (h.rtc ▸ hidle))

/-- An initialisation step whose flag's byte is answered (R128 to R131). -/
theorem initStep {pc next : RecPc} {f : RtcFlag} {on : Bool} {b : Bytes3} (h : s.PassAt as n (k + 1) r t)
    (hidle : r.Idle) (hw : t.WillAnswer (some b :: reads)) (hpc : r.recPc = pc)
    (hrow : (pc, f, on, next) ∈ initRows) :
    ∃ u, s.PassAt as (n + 1) k { r with recPc := next } u ∧ u.WillAnswer reads := by
  obtain rfl := h.rtc
  have hmicro : t.called.microStep = (t.called.setFlag f on).2.goTo next :=
    (State.microStep_init (s := t.called) hpc hrow).trans
      (State.initStep_answered on next (hw.called.byteAnswer _))
  obtain ⟨-, hbus⟩ := t.called.setFlag_spec f on
  rw [State.goTo, hbus.rtc_eq] at hmicro
  have hstep := (h.microStep hidle).trans (congrArg Host.Outcome.next hmicro)
  exact ⟨_, h.step hstep (((State.RecOnly.called t).busOnly hbus).withRtc _) hbus.faults_eq,
    (hw.called.busRmw _ _ _).withRtc _⟩

/-- A read whose bytes stand for a Time (R132, R133). -/
theorem read {rs : Regs3} {kept : Time → RtcUnit} {b : Bytes3} (h : s.PassAt as n (k + 1) r t)
    (hidle : r.Idle) (hw : t.WillAnswer (some b :: reads)) (hrow : r.ReadRow rs kept)
    (hx : Params.ReadsAs s.cfg rs (some b) (.got x)) :
    ∃ u, s.PassAt as (n + 1) k (kept x) u ∧ u.WillAnswer reads := by
  obtain rfl := h.rtc
  obtain ⟨keep, next, hmicro, hkeep⟩ := State.microStep_read (s := t.called) hrow
  obtain ⟨hr, hbus⟩ := t.called.getRegs_spec rs
  have hgot : (t.called.getRegs rs).1 = .got x := by
    rw [hr, hw.called.readAnswer]
    exact h.cfg ▸ decodeTime_of_readsAs_got hx
  rw [State.recFetched_got hgot, State.bootRead_some rfl, hkeep _ _ hbus.rtc_eq] at hmicro
  have hstep := (h.microStep hidle).trans (congrArg Host.Outcome.next hmicro)
  exact ⟨_, h.step hstep (((State.RecOnly.called t).busOnly hbus).withRtc _) hbus.faults_eq,
    (hw.called.busRead3 rs).withRtc _⟩

/-- A normalisation, whatever the bus answers (R135). -/
theorem fix {pc next : RecPc} {no : AlarmNo} (h : s.PassAt as n (k + 1) r t) (hidle : r.Idle)
    (hpc : r.recPc = pc) (hrow : (pc, no, next) ∈ fixRows)
    (htmp : r.tmpAlarm no = some x) :
    ∃ u, s.PassAt as (n + 1) k { r.withTmpAlarm no (norm5 x) with recPc := next } u := by
  obtain rfl := h.rtc
  have hmicro := State.microStep_fix (s := t.called) hpc hrow htmp
  obtain ⟨xs, hbus⟩ := State.fixAlarm_busOnly (s := t.called) htmp
  rw [State.goTo, hbus.rtc_eq] at hmicro
  have hstep := (h.microStep hidle).trans (congrArg Host.Outcome.next hmicro)
  exact ⟨_, h.step hstep ((((State.RecOnly.called t).withRtc _).busOnly hbus).withRtc _) hbus.faults_eq⟩

/-- The first step of `B_COMMIT` with all three temporaries written (R136). -/
theorem pendCommit {y z : Time} (h : s.PassAt as n (k + 1) r t) (hidle : r.Idle) (hpc : r.recPc = .bCommit)
    (htime : r.tmpTime = some x) (hal1 : r.tmpAl1 = some y) (hal2 : r.tmpAl2 = some z) :
    ∃ u, s.PassAt as (n + 1) k
      { r with
        clockPend := { r.clockPend with recTask := some x }
        al1Pend := { r.al1Pend with recTask := some y }
        al2Pend := { r.al2Pend with recTask := some z } } u := by
  obtain rfl := h.rtc
  have hstep := (h.microStep hidle).trans
    (congrArg Host.Outcome.next (State.microStep_bCommit (s := t.called) hpc htime hal1 hal2))
  exact ⟨_, h.step hstep ((State.RecOnly.called t).withRtc _) rfl⟩

/-- The second step of `B_COMMIT` (R136). -/
theorem phase2 {y z : Time} (h : s.PassAt as n (k + 1) r t) (hpc : r.recPc = .bCommit)
    (hclock : r.clockPend.recTask = some x) (hal1 : r.al1Pend.recTask = some y)
    (hal2 : r.al2Pend.recTask = some z) :
    ∃ u, s.PassAt as (n + 1) k
      { r with
        clockTime := x
        alarmTime1 := y
        alarmTime2 := z
        clockPend := { r.clockPend with recTask := none }
        al1Pend := { r.al1Pend with recTask := none }
        al2Pend := { r.al2Pend with recTask := none }
        online := true
        ready := true
        recPc := .sRead } u := by
  obtain rfl := h.rtc
  have hstep := step_recPhase2 h.sched (State.recPending_of_clock hclock)
  rw [State.recPhase2_bCommit (s := t.called) hpc, State.called_rtc, RtcUnit.commit_recTask_all hclock hal1 hal2]
    at hstep
  exact ⟨_, h.step hstep ((State.RecOnly.called t).withRtc _) rfl⟩

/-! ### The phases of a pass -/

/-- The four initialisation steps (R128 to R131). -/
theorem flags {f1 f2 f3 f4 : Bytes3} (h : s.PassAt as n (k + 4) r t) (hidle : r.Idle)
    (hw : t.WillAnswer (some f1 :: some f2 :: some f3 :: some f4 :: reads)) (hpc : r.recPc = .bSqw) :
    ∃ u, s.PassAt as (n + 4) k { r with recPc := .bRdt } u ∧ u.WillAnswer reads := by
  obtain ⟨t1, h1, w1⟩ := h.initStep (f := .sqw) (on := false) (next := .bInt) hidle hw hpc (by decide)
  obtain ⟨t2, h2, w2⟩ := h1.initStep (pc := .bInt) (f := .intOut) (on := true) (next := .bA1f) hidle w1 rfl
    (by decide)
  obtain ⟨t3, h3, w3⟩ := h2.initStep (pc := .bA1f) (f := .a1f) (on := false) (next := .bA2f) hidle w2 rfl
    (by decide)
  obtain ⟨t4, h4, w4⟩ := h3.initStep (pc := .bA2f) (f := .a2f) (on := false) (next := .bRdt) hidle w3 rfl
    (by decide)
  exact ⟨t4, h4, w4⟩

/-- The three reads (R132, R133). -/
theorem times {b1 b2 b3 : Bytes3} {y z : Time} (h : s.PassAt as n (k + 3) r t) (hidle : r.Idle)
    (hw : t.WillAnswer (some b1 :: some b2 :: some b3 :: reads)) (hpc : r.recPc = .bRdt)
    (hx : Params.ReadsAs s.cfg timeRegs (some b1) (.got x))
    (hy : Params.ReadsAs s.cfg (alarmRegs .one) (some b2) (.got y))
    (hz : Params.ReadsAs s.cfg (alarmRegs .two) (some b3) (.got z)) :
    ∃ u, s.PassAt as (n + 3) k
      { r with tmpTime := some x, tmpAl1 := some y, tmpAl2 := some z, recPc := .bFix1 } u := by
  obtain ⟨t1, h1, w1⟩ := h.read hidle hw (.time hpc) hx
  obtain ⟨t2, h2, w2⟩ := h1.read hidle w1 (.alarm1 rfl) hy
  obtain ⟨t3, h3, -⟩ := h2.read hidle w2 (.alarm2 rfl) hz
  exact ⟨t3, h3⟩

/-- The two normalisations (R135). -/
theorem fixes {y z : Time} (h : s.PassAt as n (k + 2) r t) (hidle : r.Idle) (hpc : r.recPc = .bFix1)
    (hal1 : r.tmpAl1 = some y) (hal2 : r.tmpAl2 = some z) :
    ∃ u, s.PassAt as (n + 2) k
      { r with tmpAl1 := some (norm5 y), tmpAl2 := some (norm5 z), recPc := .bCommit } u := by
  obtain ⟨t1, h1⟩ := h.fix (no := .one) (next := .bFix2) hidle hpc (by decide) hal1
  obtain ⟨t2, h2⟩ := h1.fix (pc := .bFix2) (no := .two) (next := .bCommit) hidle rfl (by decide) hal2
  exact ⟨t2, h2⟩

/-- The two steps of `B_COMMIT` (R136). -/
theorem commit {y z : Time} (h : s.PassAt as n (k + 2) r t) (hidle : r.Idle) (hpc : r.recPc = .bCommit)
    (htime : r.tmpTime = some x) (hal1 : r.tmpAl1 = some y) (hal2 : r.tmpAl2 = some z) :
    ∃ u, s.PassAt as (n + 2) k
      { r with
        clockTime := x
        alarmTime1 := y
        alarmTime2 := z
        clockPend := { r.clockPend with recTask := none }
        al1Pend := { r.al1Pend with recTask := none }
        al2Pend := { r.al2Pend with recTask := none }
        online := true
        ready := true
        recPc := .sRead } u := by
  obtain ⟨t1, h1⟩ := h.pendCommit hidle hpc htime hal1 hal2
  obtain ⟨t2, h2⟩ := h1.phase2 hpc rfl rfl rfl
  exact ⟨t2, h2⟩

end State.PassAt

end Sys2Proof.Machine
end

section
/-! PROOFS. The whole bootstrap pass. -/

namespace Sys2Proof.Proofs

open Sys2Proof.Machine

/-- Settles O53: four flags, three reads, two normalisations and the two steps of the commit, each from where the
one before it left the pass. -/
theorem bootstrapPassCommits : Obligations.BootstrapPassCommits := by
  intro s as f1 f2 f3 f4 b1 b2 b3 rest x y z hsched hsim hreads hx hy hz hpc hpend
  have hidle : s.rtc.Idle := s.recPending_eq_false_iff.mp hpend
  have h0 : s.PassAt as 0 11 s.rtc s := ⟨rfl, hsched, rfl, rfl, rfl, rfl, rfl⟩
  have w0 : s.WillAnswer ([some f1, some f2, some f3, some f4, some b1, some b2, some b3] ++ rest) :=
    ⟨hsim, hreads⟩
  obtain ⟨t1, h1, w1⟩ := h0.flags hidle w0 hpc
  obtain ⟨t2, h2⟩ := h1.times hidle w1 rfl hx hy hz
  obtain ⟨t3, h3⟩ := h2.fixes hidle rfl rfl rfl
  obtain ⟨t, h⟩ := h3.commit hidle rfl rfl rfl rfl
  exact ⟨t, h.run, h.rtc, h.disp, h.led, h.cfg, h.faults⟩

end Sys2Proof.Proofs
end

section
/-! SUPPORT. The LED tick channel by channel (R156 to R159): the targets its sequencer part sets, each channel's
ramp toward its target, the flash count along a run of ticks, and a run of ramps as one ramp. -/

namespace Sys2Proof.Machine

/-! ### The targets -/

/-- A target set on one channel is a change of that channel's target alone. -/
theorem LedUnit.aim_get (l : LedUnit) (c k : Fin 6) (t : Nat) :
    (l.aim c t).chan.get k =
      { l.chan.get k with target := if k = c then t else (l.chan.get k).target } := by
  rw [LedUnit.aim, Six.get_set]
  by_cases h : k = c
  · subst h
    simp only [if_true]
  · simp only [if_neg h]

/-- The flash count does not touch the channels. -/
@[simp] theorem LedUnit.flashTick_chan (l : LedUnit) : l.flashTick.chan = l.chan := by
  rw [LedUnit.flashTick_eq]

/-- The target of each channel after the sequencer part of a tick (R159). -/
def State.tickTargets (s : State) : Six Nat where
  d0 := levelIf (statusColour s.led s.rtc.online == .red) s.cfg.statusLevel
  d1 := levelIf (statusColour s.led s.rtc.online == .green) s.cfg.statusLevel
  d2 := levelIf s.alarmLeds.1.1 s.cfg.alarmLedLevel
  d3 := levelIf s.alarmLeds.1.2 s.cfg.alarmLedLevel
  d4 := (s.led.chan.get 4).target
  d5 := (s.led.chan.get 5).target

/-- The four aims of a tick leave each channel at its target of the tick. -/
theorem State.aimed_get (s : State) (k : Fin 6) :
    (LedUnit.aimAlarms s.cfg (LedUnit.aimStatus s.cfg s.led (statusColour s.led s.rtc.online))
        s.alarmLeds.1.1 s.alarmLeds.1.2).chan.get k =
      { s.led.chan.get k with target := s.tickTargets.get k } := by
  simp only [LedUnit.aimAlarms, LedUnit.aimStatus, LedUnit.aim_get]
  fin_cases k <;> rfl

theorem levelIf_beq (col c : FlashCol) (n : Nat) : levelIf (col == c) n = if col = c then n else 0 := by
  simp only [levelIf, beq_iff_eq]

theorem levelIf_decide (q : Prop) [Decidable q] (n : Nat) :
    levelIf (decide q) n = if q then n else 0 := by
  simp only [levelIf, decide_eq_true_eq]

/-- A flash first, then the offline tint (R158). -/
theorem statusColour_eq (l : LedUnit) (online : Bool) :
    statusColour l online =
      if 0 < l.flashLeft then l.flashCol else if online = false then .red else .dark := by
  cases online <;> rfl

theorem statusColour_of_flash {l : LedUnit} (online : Bool) (h : 0 < l.flashLeft) :
    statusColour l online = l.flashCol :=
  if_pos h

/-- With no alarm active the alarm LEDs are the Host's requests (R159). -/
theorem State.alarmLeds_of_off {s : State} (h : s.rtc.alarmState = .off) :
    s.alarmLeds.1 = (s.led.stlAl1, s.led.stlAl2) := by
  rw [State.alarmLeds, if_pos h]

/-- With an alarm active both alarm LEDs are lit on an even second of the clock as read (R159). -/
theorem State.alarmLeds_of_active {s : State} (h : s.rtc.alarmState ≠ .off) :
    s.alarmLeds.1 =
      (decide ((s.readCache .ledTimer .clock).1.s.val % 2 = 0),
        decide ((s.readCache .ledTimer .clock).1.s.val % 2 = 0)) := by
  rw [State.alarmLeds, if_neg h]

/-! ### The tick -/

/-- Where `LedTimer` is next, the step is the tick (R48, R156). -/
theorem step_ledTick {s : State} {as : List Agent} (h : s.inp.sched = .ledTimer :: as) :
    step s = .next (s.withInp { s.inp with sched := as }).ledTick :=
  step_of_sched s .ledTimer as h

/-- A tick ramps each channel, running or not, toward its target of the tick (R156, R157). -/
theorem State.ledTick_get (s : State) (k : Fin 6) :
    s.ledTick.led.chan.get k =
      rampChannel s.cfg (s.cfg.rampStep.get k)
        { s.led.chan.get k with target := s.tickTargets.get k } := by
  obtain ⟨n, l, rfl, htick⟩ := s.ledTick_eq
  simp only [htick, Six.get_zip, LedUnit.flashTick_chan, State.aimed_get]

theorem State.ledTick_target (s : State) (k : Fin 6) :
    (s.ledTick.led.chan.get k).target = s.tickTargets.get k := by
  rw [State.ledTick_get]
  rfl

/-- A tick shows the status colour on channels 0 and 1 (R158, R159). -/
theorem State.ledTick_statusTargets {s : State} {col : FlashCol} (h : statusColour s.led s.rtc.online = col) :
    (s.ledTick.led.chan.get 0).target = (if col = .red then s.cfg.statusLevel else 0) ∧
      (s.ledTick.led.chan.get 1).target = (if col = .green then s.cfg.statusLevel else 0) := by
  subst h
  rw [State.ledTick_target, State.ledTick_target, ← levelIf_beq, ← levelIf_beq]
  exact ⟨rfl, rfl⟩

/-- A tick shows the two alarm LEDs on channels 2 and 3 (R159). -/
theorem State.ledTick_alarmTargets {s : State} {on1 on2 : Bool} (h : s.alarmLeds.1 = (on1, on2)) :
    (s.ledTick.led.chan.get 2).target = levelIf on1 s.cfg.alarmLedLevel ∧
      (s.ledTick.led.chan.get 3).target = levelIf on2 s.cfg.alarmLedLevel := by
  obtain ⟨h1, h2⟩ := Prod.ext_iff.mp h
  subst h1 h2
  exact ⟨s.ledTick_target 2, s.ledTick_target 3⟩

/-- What a tick writes besides the channels: the flash count and colour, and free values may be taken (R156). -/
theorem State.ledTick_frame (s : State) :
    ∃ n, s.ledTick =
      { s with
        inp := { s.inp with draws := s.inp.draws + n }
        led := { s.led with
          chan := s.ledTick.led.chan
          flashLeft := s.led.flashLeft - 1
          flashCol := if s.led.flashLeft = 1 then .dark else s.led.flashCol } } := by
  obtain ⟨n, l, rfl, htick⟩ := s.ledTick_eq
  refine ⟨n, ?_⟩
  rw [htick, LedUnit.flashTick_eq]
  rfl

/-! ### A run of ticks -/

/-- While a flash lasts, each tick lowers its count and keeps its colour; then the colour is gone (R159). -/
theorem State.ledTick_iterate_flash {t : State} (h : 1 ≤ t.led.flashLeft) (n : Nat) :
    (State.ledTick^[n] t).cfg = t.cfg ∧
      (State.ledTick^[n] t).led.flashLeft = t.led.flashLeft - n ∧
      (State.ledTick^[n] t).led.flashCol = if n < t.led.flashLeft then t.led.flashCol else .dark := by
  induction n with
  | zero => exact ⟨rfl, rfl, (if_pos h).symm⟩
  | succ n ih =>
    obtain ⟨hcfg, hleft, hcol⟩ := ih
    obtain ⟨m, hframe⟩ := (State.ledTick^[n] t).ledTick_frame
    rw [Function.iterate_succ_apply', hframe]
    refine ⟨hcfg, by simp only [hleft]; omega, ?_⟩
    simp only [hleft, hcol]
    by_cases hn : n + 1 < t.led.flashLeft
    · rw [if_neg (by omega), if_pos (by omega), if_pos hn]
    · rw [if_neg hn]
      split
      · rfl
      · exact if_neg (by omega)

/-! ### A run of ramps -/

/-- From below, a ramp goes up by its step and stops at the target (R157). -/
theorem rampLevel_of_le {step : Nat} {c : Channel} (h : c.level ≤ c.target) :
    rampLevel step c = min c.target (c.level + step) := by
  unfold rampLevel
  split
  · rfl
  · rw [if_neg (by omega)]
    omega

/-- From above, a ramp goes down by its step and stops at the target (R157). -/
theorem rampLevel_of_ge {step : Nat} {c : Channel} (h : c.target ≤ c.level) :
    rampLevel step c = max c.target (c.level - step) := by
  unfold rampLevel
  rw [if_neg (by omega)]
  split <;> omega

/-- A ramp whose step covers the distance ends at the target (R157). -/
theorem rampLevel_of_covers {step : Nat} {c : Channel} (hup : c.target ≤ c.level + step)
    (hdown : c.level ≤ c.target + step) : rampLevel step c = c.target := by
  rcases le_total c.level c.target with h | h
  · rw [rampLevel_of_le h, min_eq_left hup]
  · rw [rampLevel_of_ge h, max_eq_left (Nat.sub_le_of_le_add hdown)]

theorem rampLevel_zero (c : Channel) : rampLevel 0 c = c.level := by
  rcases le_total c.level c.target with h | h
  · rw [rampLevel_of_le h, Nat.add_zero, min_eq_right h]
  · rw [rampLevel_of_ge h, Nat.sub_zero, max_eq_right h]

/-- A ramp by `a` and then one by `b` toward the same target go as far as one by `a + b` (R157). -/
theorem rampLevel_rampLevel {a b : Nat} {c d : Channel} (htarget : d.target = c.target)
    (hlevel : d.level = rampLevel a c) : rampLevel b d = rampLevel (a + b) c := by
  rcases le_total c.level c.target with h | h
  · rw [rampLevel_of_le h] at hlevel ⊢
    rw [rampLevel_of_le (by omega)]
    omega
  · rw [rampLevel_of_ge h] at hlevel ⊢
    rw [rampLevel_of_ge (by omega)]
    omega

/-- `n` ramps by `step` are, in all but the duty, one ramp by `n * step` (R157). -/
theorem rampChannel_iterate (p : Params) (step : Nat) (c : Channel) (n : Nat) :
    ((rampChannel p step)^[n] c).target = c.target ∧ ((rampChannel p step)^[n] c).run = c.run ∧
      ((rampChannel p step)^[n] c).level = rampLevel (n * step) c := by
  induction n with
  | zero => exact ⟨rfl, rfl, by rw [Nat.zero_mul]; exact (rampLevel_zero c).symm⟩
  | succ n ih =>
    obtain ⟨htarget, hrun, hlevel⟩ := ih
    rw [Function.iterate_succ_apply', Nat.succ_mul]
    exact ⟨htarget, hrun, rampLevel_rampLevel htarget hlevel⟩

end Sys2Proof.Machine
end

section
/-! PROOFS. The LED unit: the commands of the Host on a channel and on the sequencer, the tick, the ramp and the
flash. -/

namespace Sys2Proof.Proofs

open Sys2Proof.Machine

/-- Settles O39: each branch on the range is the model's, one channel set and answered, or the word the
instruction encodes to refused. -/
theorem setdutyAndSetlevel : Obligations.SetdutyAndSetlevel := fun _ ch val =>
  ⟨decodeOfEncode (.pwmSetduty ch val) rfl, decodeOfEncode (.ledSetlevel ch val) rfl, rfl, rfl⟩

/-- Settles O43: each target from that of the tick, in each of the cases that set it. -/
theorem tickSetsTheTargets : Obligations.TickSetsTheTargets := by
  intro s as hsched
  let s1 := s.withInp { s.inp with sched := as }
  obtain ⟨n, hframe⟩ := s1.ledTick_frame
  refine ⟨s1.ledTick, n, step_ledTick hsched, ⟨_, rfl, State.ledTick_statusTargets (statusColour_eq _ _)⟩,
    fun hoff => State.ledTick_alarmTargets (State.alarmLeds_of_off hoff), fun hactive => ?_,
    s1.ledTick_target 4, s1.ledTick_target 5, ?_⟩
  · refine ⟨_, (s1.readCache_sees .ledTimer .clock).of_rtc_eq rfl, ?_⟩
    rw [← levelIf_decide]
    exact State.ledTick_alarmTargets (State.alarmLeds_of_active hactive)
  · rw [hframe]
    exact ⟨rfl, rfl, rfl, rfl, rfl, rfl, rfl, rfl⟩

/-- Settles O44: each channel is ramped toward the target the tick leaves it. -/
theorem tickRampsEveryChannel : Obligations.TickRampsEveryChannel := by
  intro s as hsched
  refine ⟨_, step_ledTick hsched, fun c => ?_⟩
  rw [State.ledTick_get]
  exact ⟨rfl, rfl, rfl⟩

/-- Settles O45: `n` ramps go as far as one ramp by `n * step`. -/
theorem rampReachesTheTarget : Obligations.RampReachesTheTarget := by
  intro p step c n _
  obtain ⟨htarget, hrun, hlevel⟩ := rampChannel_iterate p step c n
  exact ⟨_, rfl, htarget, hrun, fun h => hlevel.trans (rampLevel_of_le h),
    fun h => hlevel.trans (rampLevel_of_ge h), fun hup hdown => hlevel.trans (rampLevel_of_covers hup hdown)⟩

/-- Settles O46: before each of the ticks the flash still lasts, so the status colour is its own. -/
theorem flashLastsFlashTicks : Obligations.FlashLastsFlashTicks := by
  intro s col hticks
  let t := (s.withLed { s.led with flashCol := FlashColour.shown col, flashLeft := s.cfg.flashTicks }).answer
    .unit
  have hflash := State.ledTick_iterate_flash (t := t) hticks
  refine ⟨t, rfl, fun n hn => ⟨_, rfl, ?_⟩, _, rfl, ?_⟩
  · obtain ⟨hcfg, hleft, hcol⟩ := hflash n
    obtain ⟨-, hleft', -⟩ := hflash (n + 1)
    have hlasts : 0 < (State.ledTick^[n] t).led.flashLeft := hleft ▸ Nat.sub_pos_of_lt hn
    obtain ⟨hred, hgreen⟩ :=
      State.ledTick_statusTargets ((statusColour_of_flash _ hlasts).trans (hcol.trans (if_pos hn)))
    rw [hcfg, ← Function.iterate_succ_apply' State.ledTick n t] at hred hgreen
    cases col <;> exact ⟨hred, hgreen, hleft'⟩
  · obtain ⟨-, hleft, hcol⟩ := hflash s.cfg.flashTicks
    exact ⟨hleft.trans (Nat.sub_self _), hcol.trans (if_neg (Nat.lt_irrefl _))⟩

/-- Settles O40: each is one update of a channel, answered; the output is read off the channel. -/
theorem startAndStop : Obligations.StartAndStop := fun _ ch =>
  ⟨decodeOfEncode (.pwmStart ch) rfl, decodeOfEncode (.pwmStop ch) rfl, rfl, rfl, rfl, rfl⟩

/-- Settles O41: each is one update of the sequencer's cells, answered. -/
theorem sequencerCommands : Obligations.SequencerCommands := fun _ a1 a2 =>
  ⟨decodeOfEncode .stlFrameclr rfl, decodeOfEncode (.stlAlarmleds a1 a2) rfl,
    decodeOfEncode (.stlFlash .green) rfl, decodeOfEncode (.stlFlash .red) rfl, rfl, rfl, rfl, rfl⟩

end Sys2Proof.Proofs
end

section
/-! SUPPORT. The writers' table of R177: what each named update leaves in the frame of an agent, and the turn of
each agent in its frame. -/

namespace Sys2Proof.Machine

/-- Traffic on the bus changes no unit of the block: only inputs and records differ (R104). -/
theorem State.BusOnly.eq_withInp_withOut {s t : State} {xs : List BusItem} (h : s.BusOnly t xs) :
    t = (s.withInp t.inp).withOut t.out := by
  obtain ⟨⟨hcfg, hdisp, hrtc, hled, -⟩, -, -⟩ := h
  cases t
  cases hcfg
  cases hdisp
  cases hrtc
  cases hled
  rfl

/-! ### The frame of `Host` -/

/-- A channel set to one of the same level leaves every level. -/
theorem level_get_set {v : Six Channel} {c : Fin 6} {x : Channel} (hx : x.level = (v.get c).level) (k : Fin 6) :
    ((v.set c x).get k).level = (v.get k).level := by
  rw [Six.get_set]
  split
  · next hk => rw [hk, hx]
  · rfl

/-- The strip mix moves targets, no level (R163). -/
theorem LedUnit.mixed_level (p : Params) (l : LedUnit) (k : Fin 6) :
    ((l.mixed p).chan.get k).level = (l.chan.get k).level :=
  (level_get_set (by rfl) k).trans (level_get_set (by rfl) k)

/-- A strip parameter is no part of the channels (R165). -/
theorem LedUnit.nudge_chan (p : Params) (l : LedUnit) (sel : StripSel) (up : Bool) :
    (l.nudge p sel up).chan = l.chan := by
  cases sel <;> rfl

namespace State.HostFrame

variable {s t u : State}

theorem refl (s : State) : s.HostFrame s :=
  ⟨rfl, rfl, rfl, rfl, rfl, rfl, rfl, fun _ => id, rfl, rfl, rfl, rfl, rfl, rfl, rfl, rfl, rfl, rfl, fun _ => rfl⟩

theorem ite {p : Prop} [Decidable p] (ht : s.HostFrame t) (hu : s.HostFrame u) :
    s.HostFrame (if p then t else u) := by
  split
  · exact ht
  · exact hu

theorem withInp (h : s.HostFrame t) (x : Inputs) : s.HostFrame (t.withInp x) := { h with }

/-- What is recorded, an answer, a fault or a refusal, is no cell of the table. -/
theorem withOut (h : s.HostFrame t) {r : Record} : s.HostFrame (t.withOut r) := { h with }

theorem answer (h : s.HostFrame t) {v : Value} : s.HostFrame (t.answer v) := h.withOut

theorem setBright (h : s.HostFrame t) (n : Nat) :
    s.HostFrame (t.withDisp { t.disp with brightCmp := n }) := { h with }

/-- The whole LED unit is the Host's but for the levels. -/
theorem withLed (h : s.HostFrame t) {l : LedUnit}
    (hlevel : ∀ k, (l.chan.get k).level = (t.led.chan.get k).level) : s.HostFrame (t.withLed l) :=
  { h with level := fun k => (hlevel k).trans (h.level k) }

theorem busOnly {xs : List BusItem} (h : s.HostFrame t) (hbus : t.BusOnly u xs) : s.HostFrame u := by
  rw [hbus.eq_withInp_withOut]
  exact (h.withInp _).withOut

/-- A channel is the Host's but for its level. -/
theorem setChannel (h : s.HostFrame t) {c : Fin 6} {x : Channel}
    (hlevel : x.level = (t.led.chan.get c).level := by rfl) : s.HostFrame (t.setChannel c x) :=
  h.withLed (level_get_set hlevel)

/-- Phase 1 of a write by the Host fills the Host's slot alone (R39). -/
theorem pendCache (h : s.HostFrame t) (c : CacheSel) (x : Time) : s.HostFrame (t.pendCache .host c x) := by
  cases c <;> exact { h with }

end State.HostFrame

theorem State.hostFrame_answerFetched {α : Type} {s t : State} (h : s.HostFrame t) (v : Option α → Value)
    (f : Fetched α) : s.HostFrame (t.answerFetched v f) := by
  cases f with
  | failed | got => exact h.answer
  | bad => exact h.withOut.withOut

theorem State.hostFrame_answerFree (s : State) : s.HostFrame s.answerFree :=
  ((HostFrame.refl s).withInp _).answer

theorem State.hostFrame_setterCommand {α : Type} (s : State) (operand : Option α) (write : α → Bool × State)
    (hw : ∀ a, s.HostFrame (write a).2) : s.HostFrame (s.setterCommand operand write) := by
  cases operand with
  | some a => exact (hw a).answer
  | none => exact s.hostFrame_answerFree

theorem State.hostFrame_setCached (s : State) (c : CacheSel) (operand : Option Time)
    (write : Time → Bool × State) (hw : ∀ x, s.HostFrame (write x).2) :
    s.HostFrame (s.setCached c operand write) := by
  cases operand with
  | some x => exact ((hw x).pendCache c x).answer
  | none => exact s.hostFrame_answerFree

theorem State.hostFrame_timeCommand (s : State) (h : BitVec 5) (m sec : BitVec 6) (w : Command)
    (f : Time → Time) : s.HostFrame (s.timeCommand h m sec w f) := by
  unfold State.timeCommand
  split <;> exact (HostFrame.refl s).withOut

theorem State.hostFrame_displayOn (s : State) : s.HostFrame s.displayOn := { HostFrame.refl s with }

/-- Switching the display off clears digit lines and sets none (R101). -/
theorem State.hostFrame_displayOff (s : State) : s.HostFrame s.displayOff :=
  { HostFrame.refl s with digEn := fun k hk => by simp [State.displayOff] at hk }

theorem State.hostFrame_busWrite (s : State) (items : List (RtcReg × Byte)) : s.HostFrame (s.busWrite items).2 :=
  (HostFrame.refl s).busOnly (s.busWrite_spec items).2

theorem State.hostFrame_setAlarm (s : State) (n : AlarmNo) (x : Time) : s.HostFrame (s.setAlarm n x).2 :=
  (HostFrame.refl s).busOnly (s.setAlarm_spec n x).2

/-- Every command writes cells of the Host's alone (R177): of the display only what is not the multiplex step's, of
the RTC unit the two modes and its own slots, of the LED unit anything but a level. -/
theorem exec_hostFrame (i : Instr) (s : State) : ∃ t, exec i s = .next t ∧ s.HostFrame t := by
  have h := State.HostFrame.refl s
  cases i with
  | dspWrgrid | dspGetcmp | recSetmode | recSetstate | recIsonline | recStatus | stlFrameclr | stlAlarmleds
  | stlFlash => exact ⟨_, rfl, { h with }⟩
  | dspSetbright => exact ⟨_, rfl, (h.ite (h.setBright _)).answer⟩
  | dspEnable => exact ⟨_, rfl, (h.ite s.hostFrame_displayOn).answer⟩
  | dspDisable => exact ⟨_, rfl, (s.hostFrame_displayOff.ite h).answer⟩
  | rtcRdreg reg => exact ⟨_, rfl, (h.busOnly (s.busRead1_spec reg).2).answer⟩
  | rtcWrreg => exact ⟨_, rfl, (s.hostFrame_busWrite _).answer⟩
  | rtcUpdreg _ bit v => exact ⟨_, rfl, (h.busOnly (s.busRmw_spec _ bit v).2).answer⟩
  | rtcGettime => exact ⟨_, rfl, State.hostFrame_answerFetched (h.busOnly s.getTime_spec.2) _ _⟩
  | rtcGetdate => exact ⟨_, rfl, State.hostFrame_answerFetched (h.busOnly s.getDate_spec.2) _ _⟩
  | rtcGetal1 | rtcGetal2 =>
    exact ⟨_, rfl, State.hostFrame_answerFetched (h.busOnly (s.getAlarm_spec _).2) _ _⟩
  | rtcSettime | rtcSetdate => exact ⟨_, rfl, s.hostFrame_setterCommand _ _ fun _ => s.hostFrame_busWrite _⟩
  | rtcSetal1 | rtcSetal2 => exact ⟨_, rfl, s.hostFrame_setterCommand _ _ (s.hostFrame_setAlarm _)⟩
  | rtcSetflag fid on => exact ⟨_, rfl, (h.busOnly (s.setFlag_spec fid on).2).answer⟩
  | rtcSelftest => exact ⟨_, rfl, (h.busOnly s.busProbe_spec.2).answer⟩
  | recSetclock => exact ⟨_, rfl, s.hostFrame_setCached _ _ _ fun _ => s.hostFrame_busWrite _⟩
  | recSetal1 | recSetal2 => exact ⟨_, rfl, s.hostFrame_setCached _ _ _ (s.hostFrame_setAlarm _)⟩
  | recRead c =>
    obtain ⟨n, hn⟩ := s.readCache_draws .host c
    exact ⟨_, rfl, (hn ▸ h.withInp _ : s.HostFrame (s.readCache .host c).2).answer⟩
  | timeAddh | timeAddm | timeSubh | timeSubm | timeAdds | timeNorm5 =>
    exact ⟨_, rfl, s.hostFrame_timeCommand _ _ _ _ _⟩
  | pwmSetduty | ledSetlevel => exact ⟨_, rfl, h.withOut.ite h.setChannel.answer⟩
  | pwmStart | pwmStop => exact ⟨_, rfl, h.setChannel.answer⟩
  | stripToggle =>
    refine ⟨_, rfl, (h.withLed fun k => ?_).answer⟩
    rw [LedUnit.mixed_level]
  | stripNudge sel up =>
    refine ⟨_, rfl, (h.withLed fun k => ?_).answer⟩
    rw [LedUnit.mixed_level, LedUnit.nudge_chan]

theorem State.hostFrame_runWord (s : State) (w : Command) : ∃ t, s.runWord w = .next t ∧ s.HostFrame t := by
  unfold State.runWord
  split
  · exact exec_hostFrame _ s
  · exact ⟨_, rfl, (HostFrame.refl s).withOut⟩

/-- Phase 2 of the Host's writes empties the Host's slots alone (R39). -/
theorem State.hostFrame_commitHost (s : State) : s.HostFrame s.commitHost := { HostFrame.refl s with }

theorem State.hostFrame_hostTurn (s : State) : ∃ t, s.hostTurn = .next t ∧ s.HostFrame t := by
  obtain ⟨x, hx, -⟩ := s.nextWord_snd
  unfold State.hostTurn State.commandTurn
  rw [hx]
  split
  · exact ⟨_, rfl, s.hostFrame_commitHost⟩
  · split
    · obtain ⟨t, ht, hframe⟩ := (s.withInp x).hostFrame_runWord ‹_›
      exact ⟨t, ht, { hframe with }⟩
    · exact ⟨_, rfl, (HostFrame.refl s).withInp x⟩

/-! ### The frame of `MuxIsr` -/

namespace State.MuxFrame

variable {s t : State}

theorem refl (s : State) : s.MuxFrame s := ⟨rfl, rfl, rfl, rfl, rfl, rfl, rfl, rfl, rfl, rfl, rfl, rfl⟩

theorem fetchFrame (h : s.MuxFrame t) : s.MuxFrame t.fetchFrame.2 := by
  obtain ⟨n, hn⟩ := t.fetchFrame_snd
  rw [hn]
  exact { h with }

/-- Shifting bits in moves the register's cells and pins alone (R90). -/
theorem shiftBits (h : s.MuxFrame t) (f : Frame) (l : List Nat) :
    s.MuxFrame (l.foldl (fun s j => s.shiftBit (f.getLsbD j)) t) := by
  induction l generalizing t with
  | nil => exact h
  | cons j l ih => exact ih { h with }

theorem strobe (h : s.MuxFrame t) : s.MuxFrame t.strobe := { h with }

theorem enableDigit (h : s.MuxFrame t) : s.MuxFrame t.enableDigit := { h with }

end State.MuxFrame

theorem State.muxFrame_muxStep (s : State) : s.MuxFrame s.muxStep := by
  have hblank : s.MuxFrame s.blankDigits.advanceDigit := { MuxFrame.refl s with }
  exact (hblank.fetchFrame.shiftBits _ _).strobe.enableDigit

theorem State.muxFrame_muxTurn (s : State) : s.MuxFrame s.muxTurn := by
  unfold State.muxTurn
  split
  · exact s.muxFrame_muxStep
  · exact MuxFrame.refl s

/-! ### The frame of `LedTimer` -/

/-- Channels 4 and 5 keep their targets through the sequencer part of a tick (R159, R163). -/
theorem State.tickTargets_strip (s : State) {k : Fin 6} (hk : 4 ≤ k.val) :
    s.tickTargets.get k = (s.led.chan.get k).target := by
  obtain rfl | rfl : k = 4 ∨ k = 5 := by omega
  · rfl
  · rfl

theorem State.ledFrame_ledTick (s : State) : s.LedFrame s.ledTick := by
  have hrun (k : Fin 6) : (s.ledTick.led.chan.get k).run = (s.led.chan.get k).run := by
    rw [State.ledTick_get]
    rfl
  have hstrip (k : Fin 6) (hk : 4 ≤ k.val) :
      (s.ledTick.led.chan.get k).target = (s.led.chan.get k).target :=
    (s.ledTick_target k).trans (s.tickTargets_strip hk)
  obtain ⟨n, htick⟩ := s.ledTick_frame
  rw [htick]
  exact ⟨rfl, rfl, rfl, rfl, hrun, hstrip, rfl, rfl, rfl, rfl, rfl⟩

/-! ### The frame of `RecTask` -/

namespace State.RecFrame

variable {s t u : State}

theorem refl (s : State) : s.RecFrame s := ⟨rfl, rfl, rfl, rfl, .inl rfl, rfl, rfl, rfl⟩

theorem trans (h : s.RecFrame t) (k : t.RecFrame u) : s.RecFrame u where
  cfg := k.cfg.trans h.cfg
  disp := k.disp.trans h.disp
  led := k.led.trans h.led
  alarmMode := k.alarmMode.trans h.alarmMode
  alarmState := by
    rcases k.alarmState with hsame | ⟨hoff, hsunrise⟩
    · rw [hsame]
      exact h.alarmState
    · rcases h.alarmState with hsame | ⟨hoff', -⟩
      · exact .inr ⟨hsame ▸ hoff, hsunrise⟩
      · exact .inr ⟨hoff', hsunrise⟩
  clockPend := k.clockPend.trans h.clockPend
  al1Pend := k.al1Pend.trans h.al1Pend
  al2Pend := k.al2Pend.trans h.al2Pend

theorem withInp (h : s.RecFrame t) (x : Inputs) : s.RecFrame (t.withInp x) := { h with }

theorem takeFault (h : s.RecFrame t) (f : FaultRecord) : s.RecFrame (t.takeFault f) := { h with }

theorem busOnly {xs : List BusItem} (h : s.RecFrame t) (hbus : t.BusOnly u xs) : s.RecFrame u := by
  rw [hbus.eq_withInp_withOut]
  exact { h with }

theorem readCache (h : s.RecFrame t) (c : CacheSel) : s.RecFrame (t.readCache .recTask c).2 := by
  obtain ⟨n, hn⟩ := t.readCache_draws .recTask c
  exact hn ▸ h.withInp _

theorem readTemporary (h : s.RecFrame t) (x : Option Time) : s.RecFrame (t.readTemporary x).2 := by
  rcases t.readTemporary_snd x with e | e <;> rw [e]
  · exact h
  · exact h.withInp _

theorem setOnline (h : s.RecFrame t) (b : Bool) : s.RecFrame (t.withRtc { t.rtc with online := b }) := { h with }

theorem goTo (h : s.RecFrame t) (pc : RecPc) : s.RecFrame (t.goTo pc) := { h with }

theorem bootFail (h : s.RecFrame t) : s.RecFrame t.bootFail := { h with }

theorem keepTime (h : s.RecFrame t) (x : Time) : s.RecFrame (t.keepTime x) := { h with }

theorem keepAlarm (h : s.RecFrame t) (n : AlarmNo) (x : Time) : s.RecFrame (State.keepAlarm n t x) := by
  cases n <;> exact { h with }

/-- Phase 1 of a write by `RecTask` fills the slot of `RecTask` alone (R39). -/
theorem pendCache (h : s.RecFrame t) (c : CacheSel) (x : Time) : s.RecFrame (t.pendCache .recTask c x) := by
  cases c <;> exact { h with }

theorem setAlarm (h : s.RecFrame t) (n : AlarmNo) (x : Time) : s.RecFrame (t.setAlarm n x).2 :=
  h.busOnly (t.setAlarm_spec n x).2

theorem recFetched {r : Fetched Time × State} (h : s.RecFrame r.2) : s.RecFrame (State.recFetched r).2 := by
  obtain ⟨f, t⟩ := r
  cases f with
  | failed | got => exact h
  | bad => exact h.takeFault _

theorem bootRead {r : Fetched Time × State} (h : s.RecFrame r.2) {keep : State → Time → State}
    (hkeep : ∀ {t}, s.RecFrame t → ∀ x, s.RecFrame (keep t x)) (next : RecPc) :
    s.RecFrame (State.bootRead (State.recFetched r) keep next) := by
  unfold State.bootRead
  split
  · exact (hkeep h.recFetched _).goTo next
  · exact h.recFetched.bootFail

end State.RecFrame

/-- The edge latch moves the alarm state only from Off to Sunrise (R139). -/
theorem State.recFrame_latchAlarm (s : State) (hit : Bool) :
    s.RecFrame (s.withRtc (s.rtc.latchAlarm hit)) := by
  have h := RecFrame.refl s
  unfold RtcUnit.latchAlarm
  split
  · split
    · exact h
    · by_cases hoff : s.rtc.alarmState = .off
      · exact { h with alarmState := .inr ⟨hoff, if_pos hoff⟩ }
      · exact { h with alarmState := .inl (if_neg hoff) }
  · exact { h with }

theorem State.recFrame_initStep (s : State) (f : RtcFlag) (on : Bool) (next : RecPc) :
    s.RecFrame (s.initStep f on next) := by
  have h := (RecFrame.refl s).busOnly (s.setFlag_spec f on).2
  unfold State.initStep
  dsimp only
  split
  · exact h.goTo next
  · exact h.bootFail

theorem State.recFrame_fixStep (s : State) (n : AlarmNo) (next : RecPc) : s.RecFrame (s.fixStep n next) := by
  have h := (RecFrame.refl s).readTemporary (s.rtc.tmpAlarm n)
  refine RecFrame.goTo ?_ next
  unfold State.fixAlarm
  split
  · exact (h.keepAlarm n _).setAlarm n _
  · exact h

theorem State.recFrame_commitStep (s : State) : s.RecFrame s.commitStep :=
  have h := (((RecFrame.refl s).readTemporary _).readTemporary _).readTemporary _
  ((h.pendCache .clock _).pendCache .al1 _).pendCache .al2 _

theorem State.recFrame_pollStep (s : State) : s.RecFrame s.pollStep := by
  have h := ((RecFrame.refl s).busOnly s.getTime_spec.2).recFetched
  unfold State.pollStep
  dsimp only
  split
  · exact ((h.setOnline true).pendCache .clock _).goTo .sCommit
  · exact (((h.readCache .clock).setOnline false).pendCache .clock _).goTo .sCommit

theorem State.recFrame_evalStep (s : State) : s.RecFrame s.evalStep := by
  have h := (((RecFrame.refl s).readCache .clock).readCache .al1).readCache .al2
  exact (h.trans (State.recFrame_latchAlarm _ _)).goTo .sRead

theorem State.recFrame_microStep (s : State) : s.RecFrame s.microStep := by
  have h := RecFrame.refl s
  unfold State.microStep
  cases s.rtc.recPc with
  | bSqw | bInt | bA1f | bA2f => exact s.recFrame_initStep _ _ _
  | bRdt => exact (h.busOnly s.getTime_spec.2).bootRead RecFrame.keepTime _
  | bRda1 | bRda2 => exact (h.busOnly (s.getAlarm_spec _).2).bootRead (RecFrame.keepAlarm · _) _
  | bFix1 | bFix2 => exact s.recFrame_fixStep _ _
  | bCommit => exact s.recFrame_commitStep
  | sRead => exact s.recFrame_pollStep
  | sCommit => exact h.goTo _
  | sEval => exact s.recFrame_evalStep

/-- Phase 2 of the writes of `RecTask` empties its own slots alone (R39). -/
theorem State.recFrame_recPhase2 (s : State) : s.RecFrame s.recPhase2 := by
  have h : s.RecFrame s.commitRec := { RecFrame.refl s with }
  unfold State.recPhase2
  cases s.rtc.recPc with
  | bCommit => exact { h with }
  | sCommit => exact h.goTo _
  | bSqw | bInt | bA1f | bA2f | bRdt | bRda1 | bRda2 | bFix1 | bFix2 | sRead | sEval => exact h

theorem State.recFrame_recTurn (s : State) : s.RecFrame s.recTurn := by
  unfold State.recTurn
  split
  · exact s.recFrame_recPhase2
  · exact s.recFrame_microStep

end Sys2Proof.Machine
end

section
/-! PROOFS. The exceptions chapter: who writes what, and that every command completes. -/

namespace Sys2Proof.Proofs

open Sys2Proof.Machine

/-- Settles O55: the turn of each agent leaves the cells outside its row of the writers' table. -/
theorem writersOfEachCell : Obligations.WritersOfEachCell := by
  intro s t a hturn
  refine ⟨?_, ?_, ?_, ?_⟩ <;> rintro rfl
  · obtain ⟨u, hu, hframe⟩ := s.hostFrame_hostTurn
    obtain rfl : u = t := Host.Outcome.next.inj (hu.symm.trans hturn)
    exact hframe
  · exact Host.Outcome.next.inj hturn ▸ s.muxFrame_muxTurn
  · exact Host.Outcome.next.inj hturn ▸ s.recFrame_recTurn
  · exact Host.Outcome.next.inj hturn ▸ s.ledFrame_ledTick

/-- Settles O54: the arm of each command gives a next state, a refusal or a fault included. -/
theorem everyCommandCompletes : Obligations.EveryCommandCompletes := by
  intro i s
  obtain ⟨t, ht, -⟩ := exec_keeps i s
  exact ⟨t, ht⟩

end Sys2Proof.Proofs
end

section
/-! SUPPORT. The units of a clean reset state (R186, R188): each is the reset value of its unit, for the
parameters the state holds; what the environment placed is no part of them. -/

namespace Sys2Proof.Machine.State.CleanReset

variable {s : State}

theorem disp_eq (h : s.CleanReset) :
    ∃ mux stage latch, s.disp = Display.reset s.cfg mux stage latch := by
  obtain ⟨p, mux, stage, latch, inp, -, -, rfl⟩ := h
  exact ⟨mux, stage, latch, rfl⟩

theorem rtc_eq (h : s.CleanReset) : s.rtc = RtcUnit.reset := by
  obtain ⟨p, mux, stage, latch, inp, -, -, rfl⟩ := h
  rfl

theorem led_eq (h : s.CleanReset) : s.led = LedUnit.reset s.cfg := by
  obtain ⟨p, mux, stage, latch, inp, -, -, rfl⟩ := h
  rfl

theorem out_eq (h : s.CleanReset) : s.out = Record.reset := by
  obtain ⟨p, mux, stage, latch, inp, -, -, rfl⟩ := h
  rfl

end Sys2Proof.Machine.State.CleanReset
end

section
/-! PROOFS. The reset chapter: the reset table and the enabled agents. -/

namespace Sys2Proof.Proofs

open Sys2Proof.Machine

/-- Settles O60: the cells are read off the reset value of their unit, and `MuxIsr` has no enabled step
because the display is off. -/
theorem resetValues : Obligations.ResetValues := by
  intro s h
  obtain ⟨mux, stage, latch, hdisp⟩ := h.disp_eq
  have hmux : s.enabled .muxIsr = false := congrArg Display.dispEnabled hdisp
  have hothers : s.enabled .host = true ∧ s.enabled .recTask = true ∧ s.enabled .ledTimer = true :=
    ⟨rfl, rfl, rfl⟩
  simp [hmux, hothers, hdisp, h.rtc_eq, h.led_eq, h.out_eq, Display.reset, RtcUnit.reset, LedUnit.reset,
    Record.reset, midnight]

end Sys2Proof.Proofs
end

section
/-! SUPPORT. The alarm evaluation (R139): the move by no minutes, the match, the edge latch as one update, and the
whole micro-step. -/

namespace Sys2Proof.Machine

/-- No minutes before a Time is that Time, with the carry and without (R81). -/
theorem subMinutes_zero (carry : Bool) (t : Time) : subMinutes carry t 0 = t := by
  cases carry with
  | true => exact fromTod_tod t
  | false =>
    have hm : (subMinutes false t 0).m = t.m := by
      have h := moveMinutes_noCarry_m t (-(0 : Nat))
      have hlt := t.m.isLt
      rw [← subMinutes] at h
      omega
    exact congrArg (fun m => { t with m := m }) hm

theorem eqHM_iff (a b : Time) : eqHM a b = true ↔ a.h = b.h ∧ a.m = b.m := by
  simp [eqHM]

/-- With no lead the match is that of an armed alarm's hour and minute with the clock's (R139). -/
theorem alarmMatch_iff {p : Params} (hlead : p.alarmLeadMin = 0) (mode : AlarmMode) (c a1 a2 : Time) :
    alarmMatch p mode c a1 a2 = true ↔
      ((mode = .alarm1 ∨ mode = .both) ∧ c.h = a1.h ∧ c.m = a1.m) ∨
        ((mode = .alarm2 ∨ mode = .both) ∧ c.h = a2.h ∧ c.m = a2.m) := by
  simp only [alarmMatch, hlead, subMinutes_zero, AlarmMode.arms, Bool.or_eq_true, Bool.and_eq_true,
    decide_eq_true_eq, eqHM_iff]

/-- The edge latch is the match, and only its rise moves the alarm state, from Off (R139). -/
theorem RtcUnit.latchAlarm_eq (r : RtcUnit) (hit : Bool) :
    r.latchAlarm hit =
      { r with
        trigLatch := hit
        alarmState :=
          if hit = true ∧ r.trigLatch = false ∧ r.alarmState = .off then .sunrise else r.alarmState } := by
  obtain ⟨_, _, _, _, _, _, _, _, _, _, _, _, _, _, latch⟩ := r
  cases hit with
  | false => rfl
  | true => cases latch <;> simp [RtcUnit.latchAlarm]

/-- The alarm evaluation reads the three caches, taking only free values, and writes the latch, the alarm state and
`recPc` (R139). -/
theorem State.evalStep_eq (s : State) :
    ∃ n c a1 a2, s.Sees .recTask .clock c ∧ s.Sees .recTask .al1 a1 ∧ s.Sees .recTask .al2 a2 ∧
      s.evalStep = (s.drawn n).withRtc
        { s.rtc.latchAlarm (alarmMatch s.cfg s.rtc.alarmMode c a1 a2) with recPc := .sRead } := by
  obtain ⟨n, hn⟩ := s.readCache_draws .recTask .clock
  obtain ⟨n1, hn1⟩ := (s.drawn n).readCache_draws .recTask .al1
  obtain ⟨n2, hn2⟩ := ((s.drawn n).drawn n1).readCache_draws .recTask .al2
  refine ⟨n + n1 + n2, _, _, _, s.readCache_sees .recTask .clock,
    ((s.drawn n).readCache_sees .recTask .al1).of_rtc_eq rfl,
    (((s.drawn n).drawn n1).readCache_sees .recTask .al2).of_rtc_eq rfl, ?_⟩
  rw [State.evalStep, hn, hn1, hn2]
  simp [State.drawn, State.goTo, State.withRtc, State.withInp, Nat.add_assoc]

end Sys2Proof.Machine
end

section
/-! PROOFS. The alarm evaluation. -/

namespace Sys2Proof.Proofs

open Sys2Proof.Machine

/-- Settles O52: the micro-step at `S_EVAL` is one update, of the match on the three times as read. -/
theorem alarmEdgeLatch : Obligations.AlarmEdgeLatch := by
  intro s as hsched hpend hpc hlead
  obtain ⟨n, c, a1, a2, hc, h1, h2, heval⟩ := s.called.evalStep_eq
  have hstep : step s = .next s.called.evalStep := by
    have hcalled : s.called.rtc.recPc = .sEval := hpc
    rw [step_microStep hsched hpend, State.microStep, hcalled]
  rw [heval, RtcUnit.latchAlarm_eq, State.called, hsched] at hstep
  exact ⟨_, c, a1, a2, _, n, hstep, hc.of_rtc_eq rfl, h1.of_rtc_eq rfl, h2.of_rtc_eq rfl,
    alarmMatch_iff hlead _ c a1 a2, rfl⟩

end Sys2Proof.Proofs
end

section
/-! SUPPORT. The invariants of the block one by one: the cells each is about, what a transaction leaves of those of
the bus and of the simulator, and the ranges that legal parameters give (R6). -/

namespace Sys2Proof.Machine

/-! ### The cells each invariant is about -/

section

variable {s t : State}

/-- The display invariant is about the display unit alone. -/
theorem State.DisplayInv.of_eq (h : s.DisplayInv) (hdisp : t.disp = s.disp) : t.DisplayInv := by
  obtain ⟨hone, hlatched, hdark, hboost, hheater, hclock, hstrobe⟩ := h
  rw [← hdisp] at hone hlatched hdark hboost hheater hclock hstrobe
  exact ⟨hone, hlatched, hdark, hboost, hheater, hclock, hstrobe⟩

/-- The invariant of `RecTask` is about the RTC unit alone. -/
theorem State.RecInv.of_eq (h : s.RecInv) (hrtc : t.rtc = s.rtc) : t.RecInv := by
  obtain ⟨hwritten, hflight, hready, hoffline, hunlatched⟩ := h
  rw [← hrtc] at hwritten hflight hready hoffline hunlatched
  exact ⟨hwritten, hflight, hready, hoffline, hunlatched⟩

/-- The Host's invariant is about the slots of the Host alone (R13, R22). -/
theorem State.HostInv.of_eq (h : s.HostInv) (hgrid : t.disp.gridPend = s.disp.gridPend)
    (hclock : t.rtc.clockPend.host = s.rtc.clockPend.host) (hal1 : t.rtc.al1Pend.host = s.rtc.al1Pend.host)
    (hal2 : t.rtc.al2Pend.host = s.rtc.al2Pend.host) : t.HostInv := by
  rw [State.HostInv, State.hostSlots, hgrid, hclock, hal1, hal2]
  exact h

/-- Every cell of the LED unit in the range 10_state.md gives it (R28, R29, R30). -/
structure LedUnit.InRange (p : Params) (l : LedUnit) : Prop where
  channels : ∀ c, Channel.InRange p (l.chan.get c)
  flash : l.flashLeft ≤ p.flashTicks
  flashDark : l.flashLeft = 0 ↔ l.flashCol = .dark
  stripB : l.stripB ≤ p.stripBMax
  stripCct : l.stripCct ≤ p.cctMax

/-- Outside the LED unit only the compare value has a range (R18). -/
theorem State.rangeInv_iff :
    s.RangeInv ↔
      s.cfg.legal = true ∧ s.disp.brightCmp ≤ s.cfg.timerTop + 1 ∧ LedUnit.InRange s.cfg s.led := by
  constructor
  · rintro ⟨hlegal, hbright, hchannels, hflash, hdark, hstripB, hstripCct⟩
    exact ⟨hlegal, hbright, hchannels, hflash, hdark, hstripB, hstripCct⟩
  · rintro ⟨hlegal, hbright, hchannels, hflash, hdark, hstripB, hstripCct⟩
    exact ⟨hlegal, hbright, hchannels, hflash, hdark, hstripB, hstripCct⟩

/-- The ranges are about the parameters, the compare value and the LED unit alone. -/
theorem State.RangeInv.of_eq (h : s.RangeInv) (hcfg : t.cfg = s.cfg)
    (hbright : t.disp.brightCmp = s.disp.brightCmp) (hled : t.led = s.led) : t.RangeInv := by
  rw [State.rangeInv_iff] at h ⊢
  rw [hcfg, hbright, hled]
  exact h

end

/-! ### The bus and the simulator -/

/-- Between `s` and `t` the bus was released again (R104), and the simulator's memory kept its canonical form. -/
structure State.Talks (s t : State) : Prop where
  bus : s.BusInv → t.BusInv
  sim : s.SimInv → t.SimInv

/-- One whole transaction leads from `s` to `t` (R104). -/
def State.Transacts (s t : State) : Prop :=
  ∃ xs, s.BusOnly t (bracketed xs) ∧ ∀ x ∈ xs, x.inside = true

namespace State.Talks

variable {s t u : State}

/-- Nothing is said on the bus where its record and the simulator are as they were. -/
theorem of_eq (hbus : t.out.bus = s.out.bus) (hsim : t.inp.sim = s.inp.sim) : s.Talks t where
  bus h := by rw [State.BusInv, hbus]; exact h
  sim h := by rw [State.SimInv, hsim]; exact h

theorem refl (s : State) : s.Talks s := ⟨id, id⟩

theorem trans (h : s.Talks t) (k : t.Talks u) : s.Talks u := ⟨k.bus ∘ h.bus, k.sim ∘ h.sim⟩

theorem transacts (h : s.Talks t) (k : t.Transacts u) : s.Talks u := by
  obtain ⟨xs, hbus, hinside⟩ := k
  refine h.trans ⟨fun hrel => ?_, hbus.sim⟩
  rw [State.BusInv] at hrel ⊢
  rw [hbus.out]
  calc busScan false (t.out.bus ++ bracketed xs)
      _ = busScan false (bracketed xs) := by rw [busScan_append, hrel]; rfl
      _ = some false := busScan_bracketed xs hinside

theorem withInp (h : s.Talks t) {x : Inputs} (hx : x.sim = t.inp.sim) : s.Talks (t.withInp x) :=
  h.trans (of_eq rfl hx)

theorem drawn (h : s.Talks t) (n : Nat) : s.Talks (t.drawn n) := h.withInp rfl

theorem withRtc (h : s.Talks t) (r : RtcUnit) : s.Talks (t.withRtc r) := h.trans (of_eq rfl rfl)

theorem takeFault (h : s.Talks t) (f : FaultRecord) : s.Talks (t.takeFault f) := h.trans (of_eq rfl rfl)

end State.Talks

theorem writeTraffic_inside (p : Params) (items : List (RtcReg × Byte)) :
    ∀ x ∈ writeTraffic p items, x.inside = true := by
  intro x hx
  obtain ⟨it, -, rfl⟩ := List.mem_map.mp hx
  rfl

theorem readTraffic_inside (p : Params) (rs : Regs3) : ∀ x ∈ readTraffic p rs, x.inside = true := by
  simp [readTraffic, BusItem.inside]

theorem rmwItems_inside (a : Byte) (i : Fin 8) (v : Bool) (b : Option Byte) :
    ∀ x ∈ rmwItems a i v b, x.inside = true := by
  cases b <;> simp [rmwItems, BusItem.inside]

theorem State.busRead1_transacts (s : State) (r : RtcReg) : s.Transacts (s.busRead1 r).2 :=
  ⟨_, (s.busRead1_spec r).2, by simp [BusItem.inside]⟩

theorem State.busRead3_transacts (s : State) (rs : Regs3) : s.Transacts (s.busRead3 rs).2 :=
  ⟨_, (s.busRead3_spec rs).2, readTraffic_inside s.cfg rs⟩

theorem State.busWrite_transacts (s : State) (items : List (RtcReg × Byte)) :
    s.Transacts (s.busWrite items).2 :=
  ⟨_, (s.busWrite_spec items).2, writeTraffic_inside s.cfg items⟩

theorem State.busRmw_transacts (s : State) (a : Byte) (i : Fin 8) (v : Bool) :
    s.Transacts (s.busRmw a i v).2 :=
  ⟨_, (s.busRmw_spec a i v).2, rmwItems_inside a i v _⟩

theorem State.busProbe_transacts (s : State) : s.Transacts s.busProbe.2 :=
  ⟨_, s.busProbe_spec.2, by simp [BusItem.inside]⟩

/-- An alarm's bytes and its mask bit are one transaction (R113, R122). -/
theorem State.setAlarm_transacts (s : State) (n : AlarmNo) (x : Time) : s.Transacts (s.setAlarm n x).2 :=
  ⟨_, (s.setAlarm_spec n x).2,
    List.forall_mem_append.mpr ⟨writeTraffic_inside s.cfg _, rmwItems_inside _ _ _ _⟩⟩

/-! ### What legal parameters give (R6) -/

section

variable {p : Params}

/-- The parts of the legality check. -/
theorem Params.legal_parts (h : p.legal = true) :
    p.legalDisplay = true ∧ p.legalRtc = true ∧ p.legalLed = true ∧ p.legalStrip = true := by
  simp only [Params.legal, Bool.and_eq_true] at h
  obtain ⟨⟨⟨⟨hdisplay, hrtc⟩, hled⟩, hstrip⟩, -⟩ := h
  exact ⟨hdisplay, hrtc, hled, hstrip⟩

/-- The ends of the brightness mapping and its reset value are compare values of the timer. -/
theorem Params.legal_bright (h : p.legal = true) :
    p.cmpAt1 ≤ p.timerTop + 1 ∧ p.cmpAt100 ≤ p.timerTop + 1 ∧ p.brightCmpReset ≤ p.timerTop + 1 := by
  obtain ⟨hdisplay, -⟩ := Params.legal_parts h
  simp only [Params.legalDisplay, Bool.and_eq_true, decide_eq_true_eq] at hdisplay
  obtain ⟨⟨⟨-, h1⟩, h100⟩, hreset⟩ := hdisplay
  exact ⟨h1, h100, hreset⟩

/-- The duties of the gamma map are duties, a flash lasts, and the levels of the sequencer are levels. -/
theorem Params.legal_led (h : p.legal = true) :
    (∀ d ∈ p.gamma, d ≤ p.dutyMax) ∧ 1 ≤ p.flashTicks ∧ p.statusLevel ≤ p.levelMax ∧
      p.alarmLedLevel ≤ p.levelMax := by
  obtain ⟨-, -, hled, -⟩ := Params.legal_parts h
  simp only [Params.legalLed, Bool.and_eq_true, decide_eq_true_eq, List.all_eq_true] at hled
  obtain ⟨⟨⟨⟨⟨⟨⟨⟨⟨⟨-, hgamma⟩, -⟩, -⟩, -⟩, -⟩, -⟩, -⟩, hflash⟩, hstatus⟩, halarm⟩ := hled
  exact ⟨hgamma, hflash, hstatus, halarm⟩

/-- A strip's brightness is a level, another mix stays in the levels, and the strip's reset values are in range. -/
theorem Params.legal_strip (h : p.legal = true) :
    p.stripBMax ≤ p.levelMax ∧ p.cctMix.within p.levelMax = true ∧ p.stripBReset ≤ p.stripBMax ∧
      p.stripCctReset ≤ p.cctMax := by
  obtain ⟨-, -, -, hstrip⟩ := Params.legal_parts h
  simp only [Params.legalStrip, Bool.and_eq_true, decide_eq_true_eq] at hstrip
  obtain ⟨⟨⟨⟨⟨⟨⟨-, hmax⟩, -⟩, -⟩, -⟩, hmix⟩, hb⟩, hcct⟩ := hstrip
  exact ⟨hmax, hmix, hb, hcct⟩

/-- A level's duty is a duty: the gamma map's, or 0 (R157). -/
theorem Params.gammaAt_le (h : p.legal = true) (l : Nat) : p.gammaAt l ≤ p.dutyMax := by
  obtain ⟨hgamma, -⟩ := Params.legal_led h
  rw [Params.gammaAt, List.getD_eq_getElem?_getD]
  cases hl : p.gamma[l]? with
  | none => exact Nat.zero_le _
  | some d => exact hgamma d (List.mem_of_getElem? hl)

end

/-! ### The LED unit in its ranges -/

theorem levelIf_le {n top : Nat} (h : n ≤ top) (b : Bool) : levelIf b n ≤ top := by
  cases b
  · exact Nat.zero_le _
  · exact h

/-- A ramp stays between the level and the target (R157). -/
theorem rampLevel_le {step top : Nat} {c : Channel} (hlevel : c.level ≤ top) (htarget : c.target ≤ top) :
    rampLevel step c ≤ top := by
  rcases le_total c.level c.target with h | h
  · rw [rampLevel_of_le h]
    omega
  · rw [rampLevel_of_ge h]
    omega

theorem Channel.InRange.ramp {p : Params} {c : Channel} (h : Channel.InRange p c) (hlegal : p.legal = true)
    (step : Nat) : Channel.InRange p (rampChannel p step c) := by
  obtain ⟨hlevel, htarget, hduty⟩ := h
  refine ⟨rampLevel_le hlevel htarget, htarget, ?_⟩
  unfold rampChannel
  dsimp only
  split
  · exact Params.gammaAt_le hlegal _
  · exact hduty

/-- A strip's targets under the linear mix are at most its brightness (R163). -/
theorem mul_div_le_of_le {b x n : Nat} (h : x ≤ n) : b * x / n ≤ b :=
  Nat.div_le_of_le_mul ((Nat.mul_le_mul_left b h).trans_eq (Nat.mul_comm b n))

/-- The targets of another mix are those of its table, or 0 (R163). -/
theorem CctMix.table_le {rows : List (List (Nat × Nat))} {top : Nat}
    (h : (CctMix.table rows).within top = true) (b cct : Nat) :
    ((rows.getD b []).getD cct (0, 0)).1 ≤ top ∧ ((rows.getD b []).getD cct (0, 0)).2 ≤ top := by
  simp only [CctMix.within, List.all_eq_true, decide_eq_true_eq] at h
  simp only [List.getD_eq_getElem?_getD]
  cases hrow : rows[b]? with
  | none => simp
  | some row =>
    rw [Option.getD_some]
    cases hwc : row[cct]? with
    | none => simp
    | some wc => exact h row (List.mem_of_getElem? hrow) wc (List.mem_of_getElem? hwc)

namespace LedUnit.InRange

variable {p : Params} {l : LedUnit}

theorem setChannel (h : l.InRange p) (c : Fin 6) {x : Channel} (hx : x.InRange p) :
    LedUnit.InRange p { l with chan := l.chan.set c x } :=
  { h with
    channels := fun k => by
      rw [Six.get_set]
      split
      · exact hx
      · exact h.channels k }

theorem aim (h : l.InRange p) (c : Fin 6) {t : Nat} (ht : t ≤ p.levelMax) : (l.aim c t).InRange p := by
  obtain ⟨hlevel, -, hduty⟩ := h.channels c
  exact h.setChannel c ⟨hlevel, ht, hduty⟩

/-- The Host's requests have no range (R161). -/
theorem setRequests (h : l.InRange p) (a1 a2 : Bool) :
    LedUnit.InRange p { l with stlAl1 := a1, stlAl2 := a2 } :=
  ⟨h.channels, h.flash, h.flashDark, h.stripB, h.stripCct⟩

theorem setStripOn (h : l.InRange p) (on : Bool) : LedUnit.InRange p { l with stripOn := on } :=
  ⟨h.channels, h.flash, h.flashDark, h.stripB, h.stripCct⟩

/-- A flash begins with a colour and at least one tick (R162). -/
theorem flash_shown (h : l.InRange p) (hlegal : p.legal = true) (col : FlashColour) :
    LedUnit.InRange p { l with flashCol := FlashColour.shown col, flashLeft := p.flashTicks } := by
  obtain ⟨-, hticks, -⟩ := Params.legal_led hlegal
  have hcol : FlashColour.shown col ≠ .dark := by cases col <;> decide
  exact ⟨h.channels, le_rfl, iff_of_false (Nat.ne_of_gt hticks) hcol, h.stripB, h.stripCct⟩

/-- The strip mix sets targets that are levels (R163). -/
theorem mixed (h : l.InRange p) (hlegal : p.legal = true) : (l.mixed p).InRange p := by
  obtain ⟨hmax, hmix, -⟩ := Params.legal_strip hlegal
  have htargets : (l.stripTargets p).1 ≤ p.levelMax ∧ (l.stripTargets p).2 ≤ p.levelMax := by
    unfold LedUnit.stripTargets mixOf
    split
    · split
      · exact ⟨(mul_div_le_of_le (Nat.sub_le _ _)).trans (h.stripB.trans hmax),
          (mul_div_le_of_le h.stripCct).trans (h.stripB.trans hmax)⟩
      · next rows hrows => exact CctMix.table_le (hrows ▸ hmix) _ _
    · exact ⟨Nat.zero_le _, Nat.zero_le _⟩
  exact (h.aim 4 htargets.1).aim 5 htargets.2

/-- A parameter of the strip is kept between 0 and its top (R165). -/
theorem nudge (h : l.InRange p) (sel : StripSel) (up : Bool) : (l.nudge p sel up).InRange p := by
  have htop (v step top : Nat) : nudged v step top up ≤ top := by
    unfold nudged
    omega
  cases sel with
  | brightness => exact { h with stripB := htop _ _ _ }
  | colour => exact { h with stripCct := htop _ _ _ }

/-- The flash count and its colour end together (R159). -/
theorem flashTick (h : l.InRange p) : l.flashTick.InRange p := by
  rw [LedUnit.flashTick_eq]
  refine { h with flash := (Nat.sub_le _ _).trans h.flash, flashDark := ?_ }
  have hdark := h.flashDark
  by_cases h1 : l.flashLeft = 1
  · simp [h1]
  · rw [if_neg h1, ← hdark]
    show l.flashLeft - 1 = 0 ↔ l.flashLeft = 0
    omega

theorem ramp (h : l.InRange p) (hlegal : p.legal = true) :
    LedUnit.InRange p { l with chan := Six.zip (rampChannel p) p.rampStep l.chan } :=
  { h with
    channels := fun k => by
      rw [Six.get_zip]
      exact (h.channels k).ramp hlegal _ }

end LedUnit.InRange

end Sys2Proof.Machine
end

section
/-! SUPPORT. Each command of the Host and its phase 2, the multiplex step and the LED tick keep the invariants of the
block: named update by named update, and beyond the writer's own unit by its frame (R177). -/

namespace Sys2Proof.Machine

/-! ### The turn of `Host` -/

theorem State.hostSlots_pendGrid (s : State) (k : Fin 6) (e : GridEntry) :
    (s.pendGrid k e).hostSlots ≤ s.hostSlots + 1 := by
  fin_cases k <;> simp [State.hostSlots, Six.set, bitNat] <;> omega

theorem State.hostSlots_pendCache (s : State) (c : CacheSel) (t : Time) :
    (s.pendCache .host c t).hostSlots ≤ s.hostSlots + 1 := by
  cases c <;> simp [State.hostSlots, State.pendCache, bitNat] <;> omega

namespace State.Inv

variable {s t : State}

/-- Inputs and records have a part in the invariants only by the simulator and the bus. -/
theorem of_units (h : s.Inv) (hcfg : t.cfg = s.cfg) (hdisp : t.disp = s.disp) (hrtc : t.rtc = s.rtc)
    (hled : t.led = s.led) (htalks : s.Talks t) : t.Inv where
  display := h.display.of_eq hdisp
  range := h.range.of_eq hcfg (by rw [hdisp]) hled
  recon := h.recon.of_eq hrtc
  host := h.host.of_eq (by rw [hdisp]) (by rw [hrtc]) (by rw [hrtc]) (by rw [hrtc])
  bus := htalks.bus h.bus
  sim := htalks.sim h.sim

theorem transacts (h : s.Inv) (k : s.Transacts t) : t.Inv := by
  have htalks := (State.Talks.refl s).transacts k
  obtain ⟨xs, ⟨⟨hcfg, hdisp, hrtc, hled, -⟩, -, -⟩, -⟩ := k
  exact h.of_units hcfg hdisp hrtc hled htalks

theorem withInp (h : s.Inv) {x : Inputs} (hx : x.sim = s.inp.sim) : (s.withInp x).Inv :=
  h.of_units rfl rfl rfl rfl (.of_eq rfl hx)

theorem withOut (h : s.Inv) {r : Record} (hr : r.bus = s.out.bus) : (s.withOut r).Inv :=
  h.of_units rfl rfl rfl rfl (.of_eq hr rfl)

theorem drawn (h : s.Inv) (n : Nat) : (s.drawn n).Inv := h.withInp rfl

theorem answer (h : s.Inv) (v : Value) : (s.answer v).Inv := h.withOut rfl

theorem answerFree (h : s.Inv) : s.answerFree.Inv := (h.drawn 1).answer _

theorem refuse (h : s.Inv) (q : RefusedWord) : (s.refuse q).Inv := h.withOut rfl

theorem hostFault (h : s.Inv) (reg : RtcReg) (byte : Byte) : (s.hostFault reg byte).Inv :=
  h.of_units rfl rfl rfl rfl (.of_eq rfl rfl)

theorem readCache (h : s.Inv) (a : Agent) (c : CacheSel) : (s.readCache a c).2.Inv := by
  obtain ⟨n, hn⟩ := s.readCache_draws a c
  rw [hn]
  exact h.drawn n

theorem answerFetched {α : Type} (h : s.Inv) (v : Option α → Value) (f : Fetched α) :
    (s.answerFetched v f).Inv := by
  cases f with
  | failed | got => exact h.answer _
  | bad reg byte => exact h.hostFault reg byte

theorem setterCommand {α : Type} (h : s.Inv) (operand : Option α) {write : α → Bool × State}
    (hw : ∀ a, s.Transacts (write a).2) : (s.setterCommand operand write).Inv := by
  cases operand with
  | some a => exact (h.transacts (hw a)).answer _
  | none => exact h.answerFree

theorem timeCommand (h : s.Inv) (hour : BitVec 5) (m sec : BitVec 6) (w : Command) (f : Time → Time) :
    (s.timeCommand hour m sec w f).Inv := by
  unfold State.timeCommand
  split
  · exact h.answer _
  · exact h.refuse _

/-- The LED unit may change within its ranges. -/
theorem withLed (h : s.Inv) {l : LedUnit} (hl : l.InRange s.cfg) : (s.withLed l).Inv where
  display := { h.display with }
  range := State.rangeInv_iff.mpr ⟨h.range.legal, h.range.bright, hl⟩
  recon := { h.recon with }
  host := h.host
  bus := h.bus
  sim := h.sim

/-- The LED unit is in its ranges. -/
theorem led (h : s.Inv) : s.led.InRange s.cfg := (State.rangeInv_iff.mp h.range).2.2

theorem setChannel (h : s.Inv) (c : Fin 6) {x : Channel} (hx : x.InRange s.cfg) : (s.setChannel c x).Inv :=
  h.withLed (h.led.setChannel c hx)

theorem setDuty (h : s.Inv) (c : Fin 6) {d : Nat} (hd : d ≤ s.cfg.dutyMax) :
    (s.setChannel c { s.led.chan.get c with duty := d }).Inv := by
  obtain ⟨hlevel, htarget, -⟩ := h.led.channels c
  exact h.setChannel c (x := { s.led.chan.get c with duty := d }) ⟨hlevel, htarget, hd⟩

theorem setRun (h : s.Inv) (c : Fin 6) (b : Bool) : (s.setChannel c { s.led.chan.get c with run := b }).Inv :=
  h.setChannel c (x := { s.led.chan.get c with run := b }) (h.led.channels c)

theorem setBright (h : s.Inv) {n : Nat} (hn : n ≤ s.cfg.timerTop + 1) :
    (s.withDisp { s.disp with brightCmp := n }).Inv where
  display := { h.display with }
  range := { h.range with bright := hn }
  recon := { h.recon with }
  host := h.host
  bus := h.bus
  sim := h.sim

/-- Switching the display on sets no digit line (R100). -/
theorem displayOn (h : s.Inv) : s.displayOn.Inv where
  display :=
    { h.display with
      dark := fun hoff => nomatch hoff
      boost := rfl
      heater := rfl }
  range := { h.range with }
  recon := { h.recon with }
  host := h.host
  bus := h.bus
  sim := h.sim

/-- Switching the display off clears every digit line (R101). -/
theorem displayOff (h : s.Inv) : s.displayOff.Inv where
  display :=
    { h.display with
      oneDigit := fun k hk => absurd hk (by simp [State.displayOff])
      latched := fun k hk => absurd hk (by simp [State.displayOff])
      dark := fun _ k => Six.get_fill false k
      boost := rfl
      heater := rfl }
  range := { h.range with }
  recon := { h.recon with }
  host := h.host
  bus := h.bus
  sim := h.sim

/-- The modes have no part in the invariants (R25, R26). -/
theorem setModes (h : s.Inv) (mode : AlarmMode) (state : AlarmState) :
    (s.withRtc { s.rtc with alarmMode := mode, alarmState := state }).Inv where
  display := { h.display with }
  range := { h.range with }
  recon := { h.recon with }
  host := h.host
  bus := h.bus
  sim := h.sim

/-- Phase 1 of a grid entry is the Host's one pending write where it had none (R39). -/
theorem pendGrid (h : s.Inv) (hquiet : s.hostPending = false) (k : Fin 6) (e : GridEntry) :
    (s.pendGrid k e).Inv where
  display := { h.display with }
  range := { h.range with }
  recon := { h.recon with }
  host := (s.hostSlots_pendGrid k e).trans_eq (congrArg (· + 1) (s.hostSlots_zero hquiet))
  bus := h.bus
  sim := h.sim

/-- So is phase 1 of a cache, and `RecTask`'s own slots stay as they are (R22, R39). -/
theorem pendCache (h : s.Inv) (hquiet : s.hostPending = false) (c : CacheSel) (t : Time) :
    (s.pendCache .host c t).Inv where
  display := h.display.of_eq (s.pendCache_disp .host c t)
  range := h.range.of_eq (s.pendCache_cfg .host c t) (by rw [State.pendCache_disp]) (s.pendCache_led .host c t)
  recon := by cases c <;> exact { h.recon with }
  host := (s.hostSlots_pendCache c t).trans_eq (congrArg (· + 1) (s.hostSlots_zero hquiet))
  bus := by rw [State.BusInv, State.pendCache_out]; exact h.bus
  sim := by rw [State.SimInv, State.pendCache_inp]; exact h.sim

/-- Phase 2 empties every slot of the Host (R39). -/
theorem commitHost (h : s.Inv) : s.commitHost.Inv where
  display := { h.display with }
  range := { h.range with }
  recon := { h.recon with }
  host := Nat.zero_le 1
  bus := h.bus
  sim := h.sim

end State.Inv

/-- Traffic leaves the Host's slots alone. -/
theorem State.Transacts.hostPending_eq {s t : State} (h : s.Transacts t) : t.hostPending = s.hostPending := by
  obtain ⟨xs, ⟨⟨-, hdisp, hrtc, -, -⟩, -, -⟩, -⟩ := h
  rw [State.hostPending, State.hostPending, hdisp, hrtc]

theorem State.Inv.setCached {s : State} (h : s.Inv) (hquiet : s.hostPending = false) (c : CacheSel)
    (operand : Option Time) {write : Time → Bool × State} (hw : ∀ x, s.Transacts (write x).2) :
    (s.setCached c operand write).Inv := by
  cases operand with
  | some x => exact ((h.transacts (hw x)).pendCache ((hw x).hostPending_eq.trans hquiet) c x).answer _
  | none => exact h.answerFree

/-- In 1..100 the compare value is one of the timer's (R6, R96). -/
theorem State.Inv.exec_dspSetbright {s : State} (h : s.Inv) (pct : BitVec 7) :
    ∃ t, exec (.dspSetbright pct) s = .next t ∧ t.Inv := by
  by_cases hout : pct.toNat < 1 ∨ 100 < pct.toNat
  · exact ⟨_, exec_dspSetbright_outside s hout, h.answer _⟩
  · obtain ⟨h1, h100, -⟩ := Params.legal_bright h.range.legal
    obtain ⟨-, -, hhigh⟩ := brightValue_linear s.cfg (pct := pct.toNat) (by omega) (by omega)
    exact ⟨_, exec_dspSetbright_inside s hout, (h.setBright (hhigh.trans (max_le h1 h100))).answer _⟩

/-- Every command of the Host keeps the invariants where no write of the Host is in flight. -/
theorem exec_inv (i : Instr) {s : State} (h : s.Inv) (hquiet : s.hostPending = false) :
    ∃ t, exec i s = .next t ∧ t.Inv := by
  cases i with
  | dspGetcmp | recIsonline | recStatus => exact ⟨_, rfl, h.answer _⟩
  | dspWrgrid => exact ⟨_, rfl, (h.pendGrid hquiet _ _).answer _⟩
  | dspSetbright pct => exact h.exec_dspSetbright pct
  | dspEnable =>
    refine ⟨_, rfl, State.Inv.answer ?_ _⟩
    split
    · exact h
    · exact h.displayOn
  | dspDisable =>
    refine ⟨_, rfl, State.Inv.answer ?_ _⟩
    split
    · exact h.displayOff
    · exact h
  | rtcRdreg => exact ⟨_, rfl, (h.transacts (s.busRead1_transacts _)).answer _⟩
  | rtcWrreg => exact ⟨_, rfl, (h.transacts (s.busWrite_transacts _)).answer _⟩
  | rtcUpdreg | rtcSetflag => exact ⟨_, rfl, (h.transacts (s.busRmw_transacts _ _ _)).answer _⟩
  | rtcGettime | rtcGetdate | rtcGetal1 | rtcGetal2 =>
    exact ⟨_, rfl, (h.transacts (s.busRead3_transacts _)).answerFetched _ _⟩
  | rtcSettime | rtcSetdate => exact ⟨_, rfl, h.setterCommand _ fun _ => s.busWrite_transacts _⟩
  | rtcSetal1 | rtcSetal2 => exact ⟨_, rfl, h.setterCommand _ fun _ => s.setAlarm_transacts _ _⟩
  | rtcSelftest => exact ⟨_, rfl, (h.transacts s.busProbe_transacts).answer _⟩
  | recSetmode | recSetstate => exact ⟨_, rfl, (h.setModes _ _).answer _⟩
  | recSetclock => exact ⟨_, rfl, h.setCached hquiet _ _ fun _ => s.busWrite_transacts _⟩
  | recSetal1 | recSetal2 => exact ⟨_, rfl, h.setCached hquiet _ _ fun _ => s.setAlarm_transacts _ _⟩
  | recRead => exact ⟨_, rfl, (h.readCache _ _).answer _⟩
  | timeAddh | timeAddm | timeSubh | timeSubm | timeAdds | timeNorm5 =>
    exact ⟨_, rfl, h.timeCommand _ _ _ _ _⟩
  | pwmSetduty ch val =>
    refine ⟨_, rfl, ?_⟩
    split
    · exact h.refuse _
    · next hval => exact (h.setDuty ch (Nat.le_of_not_lt hval)).answer _
  | ledSetlevel ch val =>
    refine ⟨_, rfl, ?_⟩
    split
    · exact h.refuse _
    · next hval => exact (h.withLed (h.led.aim ch (Nat.le_of_not_lt hval))).answer _
  | pwmStart | pwmStop => exact ⟨_, rfl, (h.setRun _ _).answer _⟩
  | stlFrameclr | stlAlarmleds => exact ⟨_, rfl, (h.withLed (h.led.setRequests _ _)).answer _⟩
  | stlFlash col => exact ⟨_, rfl, (h.withLed (h.led.flash_shown h.range.legal col)).answer _⟩
  | stripToggle => exact ⟨_, rfl, (h.withLed ((h.led.setStripOn _).mixed h.range.legal)).answer _⟩
  | stripNudge sel up => exact ⟨_, rfl, (h.withLed ((h.led.nudge sel up).mixed h.range.legal)).answer _⟩

theorem State.Inv.runWord {s : State} (h : s.Inv) (hquiet : s.hostPending = false) (w : Command) :
    ∃ t, s.runWord w = .next t ∧ t.Inv := by
  unfold State.runWord
  split
  · exact exec_inv _ h hquiet
  · exact ⟨_, rfl, h.refuse _⟩

/-- The Host runs a word only where it has no write in flight (R178). -/
theorem State.Inv.hostTurn {s : State} (h : s.Inv) : ∃ t, s.hostTurn = .next t ∧ t.Inv := by
  by_cases hpend : s.hostPending = true
  · exact ⟨_, s.hostTurn_of_pending hpend, h.commitHost⟩
  · have hquiet := Bool.eq_false_of_not_eq_true hpend
    obtain ⟨x, hx, hsim⟩ := s.nextWord_snd
    rw [s.hostTurn_of_not_pending hquiet, State.commandTurn, hx]
    split
    · exact (h.withInp hsim).runWord hquiet _
    · exact ⟨_, rfl, h.withInp hsim⟩

/-! ### The turn of `MuxIsr` -/

/-- Every digit line is low, as from step 1 of the multiplex step to step 5 (R87, R93); of the display invariant,
what is not about a lit digit. -/
structure State.Blanked (s : State) : Prop where
  digits : ∀ k, s.disp.digEn.get k = false
  boost : s.disp.boostEn = s.disp.dispEnabled
  heater : s.disp.heaterEn = s.disp.dispEnabled
  clockLow : s.disp.srClk = false
  strobeLow : s.disp.srStrobe = false

namespace State.Blanked

variable {s : State}

theorem blankDigits (h : s.DisplayInv) : s.blankDigits.Blanked :=
  ⟨Six.get_fill false, h.boost, h.heater, h.clockLow, h.strobeLow⟩

theorem advanceDigit (h : s.Blanked) : s.advanceDigit.Blanked := { h with }

theorem fetchFrame (h : s.Blanked) : s.fetchFrame.2.Blanked := by
  obtain ⟨n, hn⟩ := s.fetchFrame_snd
  rw [hn]
  exact { h with }

/-- A bit shifted in leaves the clock low again (R90). -/
theorem shiftBits (h : s.Blanked) (f : Frame) (l : List Nat) :
    (l.foldl (fun s j => s.shiftBit (f.getLsbD j)) s).Blanked := by
  induction l generalizing s with
  | nil => exact h
  | cons j l ih => exact ih { h with clockLow := rfl }

theorem strobe (h : s.Blanked) : s.strobe.Blanked := { h with strobeLow := rfl }

/-- With the current digit enabled alone, the display invariant holds where the latch shows the stages (R94). -/
theorem enableDigit (h : s.Blanked) (hlatch : s.disp.srLatch = s.disp.srStage)
    (hon : s.disp.dispEnabled = true) : s.enableDigit.DisplayInv where
  oneDigit k hk := by
    by_contra hne
    have hlow := (Six.get_set_other s.disp.digEn s.disp.muxIdx k true hne).trans (h.digits k)
    exact Bool.false_ne_true (hlow.symm.trans hk)
  latched _ _ := hlatch
  dark hoff := nomatch hon.symm.trans hoff
  boost := h.boost
  heater := h.heater
  clockLow := h.clockLow
  strobeLow := h.strobeLow

end State.Blanked

theorem State.shiftBits_inp (f : Frame) (l : List Nat) (s : State) :
    (l.foldl (fun s j => s.shiftBit (f.getLsbD j)) s).inp = s.inp := by
  induction l generalizing s with
  | nil => rfl
  | cons j l ih => exact ih (s.shiftBit (f.getLsbD j))

/-- The multiplex step takes only free values of the inputs. -/
theorem State.muxStep_sim (s : State) : s.muxStep.inp.sim = s.inp.sim := by
  obtain ⟨n, hn⟩ := s.blankDigits.advanceDigit.fetchFrame_snd
  have hshift := State.shiftBits_inp s.nextFrame (ShiftOrder.positions s.cfg.shiftOrder)
    (s.blankDigits.advanceDigit.drawn n)
  rw [State.muxStep, hn]
  exact (congrArg Inputs.sim hshift :)

theorem State.DisplayInv.muxStep {s : State} (h : s.DisplayInv) (hon : s.disp.dispEnabled = true) :
    s.muxStep.DisplayInv := by
  have hshifted := ((State.Blanked.blankDigits h).advanceDigit.fetchFrame).shiftBits
    s.nextFrame (ShiftOrder.positions s.blankDigits.advanceDigit.fetchFrame.2.cfg.shiftOrder)
  exact hshifted.strobe.enableDigit rfl (s.muxFrame_muxStep.dispEnabled.trans hon)

/-- The multiplex step writes the display alone, and of it nothing that has a range (R177). -/
theorem State.Inv.muxTurn {s : State} (h : s.Inv) : s.muxTurn.Inv := by
  unfold State.muxTurn
  split
  case isFalse => exact h
  case isTrue hon =>
    obtain ⟨hcfg, hrtc, hled, -, hpend, -, -, -, hbright, -, -, hbus⟩ := s.muxFrame_muxStep
    have htalks : s.Talks s.muxStep := .of_eq hbus s.muxStep_sim
    exact ⟨h.display.muxStep hon, h.range.of_eq hcfg hbright hled, h.recon.of_eq hrtc,
      h.host.of_eq hpend (by rw [hrtc]) (by rw [hrtc]) (by rw [hrtc]), htalks.bus h.bus, htalks.sim h.sim⟩

/-! ### The turn of `LedTimer` -/

/-- The LED tick writes the LED unit alone, and its targets, levels and duties are in range (R156 to R159). -/
theorem State.Inv.ledTick {s : State} (h : s.Inv) : s.ledTick.Inv := by
  obtain ⟨-, -, hstatus, halarm⟩ := Params.legal_led h.range.legal
  obtain ⟨n, l, rfl, htick⟩ := s.ledTick_eq
  have haimed : LedUnit.InRange s.cfg (LedUnit.aimAlarms s.cfg
      (LedUnit.aimStatus s.cfg s.led (statusColour s.led s.rtc.online)) s.alarmLeds.1.1 s.alarmLeds.1.2) :=
    (((h.led.aim 0 (levelIf_le hstatus _)).aim 1 (levelIf_le hstatus _)).aim 2 (levelIf_le halarm _)).aim 3
      (levelIf_le halarm _)
  rw [htick]
  exact (h.drawn n).withLed (haimed.flashTick.ramp h.range.legal)

end Sys2Proof.Machine
end

section
/-! SUPPORT. Every micro-step of `RecTask` keeps its invariant, releases the bus and keeps the simulator's memory
canonical (R126 to R142); so the turn of every agent keeps the invariants of the block. -/

namespace Sys2Proof.Machine

/-! ### The bootstrap and the steady phase -/

/-- With nothing pending the writes in flight are those of any `recPc` but `S_COMMIT` (R136, R137). -/
theorem RtcUnit.Idle.inFlight {r : RtcUnit} (h : r.Idle) (hpc : r.recPc ≠ .sCommit) : r.InFlight := by
  obtain ⟨hclock, hal1, hal2⟩ := h
  unfold RtcUnit.InFlight
  cases hr : r.recPc with
  | sCommit => exact absurd hr hpc
  | bCommit => exact ⟨by rw [hclock, hal1], by rw [hclock, hal2]⟩
  | bSqw | bInt | bA1f | bA2f | bRdt | bRda1 | bRda2 | bFix1 | bFix2 | sRead | sEval =>
    exact ⟨hclock, hal1, hal2⟩

/-- The temporaries are the bootstrap's alone (R140). -/
theorem RtcUnit.written_of_steady {r : RtcUnit} (h : r.recPc.steady = true) : r.Written := by
  unfold RtcUnit.Written
  cases hr : r.recPc with
  | sRead | sCommit | sEval => trivial
  | bSqw | bInt | bA1f | bA2f | bRdt | bRda1 | bRda2 | bFix1 | bFix2 | bCommit =>
    rw [hr] at h
    cases h

/-- The unit in the bootstrap with nothing of `RecTask` pending: not ready, not online and the latch clear (R24,
R142). -/
structure RtcUnit.Booting (r : RtcUnit) : Prop where
  boot : r.recPc.steady = false
  idle : r.Idle
  ready : r.ready = false
  offline : r.online = false
  unlatched : r.trigLatch = false

theorem RtcUnit.Booting.of_recInv {s : State} (h : s.RecInv) (hboot : s.rtc.recPc.steady = false)
    (hidle : s.rtc.Idle) : s.rtc.Booting :=
  ⟨hboot, hidle, h.ready.trans hboot, h.offline hboot, h.unlatched hboot⟩

/-- In the bootstrap the invariant is that, and which temporaries are written. -/
theorem State.RecInv.of_booting {s : State} (h : s.rtc.Booting) (hwritten : s.rtc.Written) : s.RecInv where
  written := hwritten
  inFlight := h.idle.inFlight fun hpc => nomatch (hpc ▸ h.boot : RecPc.sCommit.steady = false)
  ready := h.ready.trans h.boot.symm
  offline _ := h.offline
  unlatched _ := h.unlatched

/-- In the steady phase the invariant is that the unit is ready, and which writes are in flight. -/
theorem State.RecInv.of_steady {s : State} (hsteady : s.rtc.recPc.steady = true) (hready : s.rtc.ready = true)
    (hflight : s.rtc.InFlight) : s.RecInv where
  written := RtcUnit.written_of_steady hsteady
  inFlight := hflight
  ready := hready.trans hsteady.symm
  offline hboot := nomatch hsteady.symm.trans hboot
  unlatched hboot := nomatch hsteady.symm.trans hboot

/-- What a micro-step of `RecTask` leaves of the invariants that are not in its frame. -/
structure State.RecKeeps (s t : State) : Prop where
  recon : t.RecInv
  talks : s.Talks t

/-- The failure step goes back to the start of the bootstrap (R127). -/
theorem State.recKeeps_bootFail {s t : State} (h : t.rtc.Booting) (htalks : s.Talks t) :
    s.RecKeeps t.bootFail where
  recon := .of_booting (s := t.bootFail) { h with boot := rfl, offline := rfl } trivial
  talks := htalks.withRtc _

/-! ### The micro-steps of the bootstrap -/

/-- An initialisation step goes on to a step that needs no temporary, or fails (R127 to R131). -/
theorem State.recKeeps_initStep {s : State} (h : s.rtc.Booting) (f : RtcFlag) (on : Bool) {next : RecPc}
    (hnext : next.steady = false) (hwritten : ({ s.rtc with recPc := next } : RtcUnit).Written) :
    s.RecKeeps (s.initStep f on next) := by
  have hbus := (s.setFlag_spec f on).2
  have htalks : s.Talks (s.setFlag f on).2 := (State.Talks.refl s).transacts (s.busRmw_transacts _ _ _)
  rw [← hbus.rtc_eq] at h hwritten
  unfold State.initStep
  dsimp only
  split
  · exact ⟨.of_booting (s := State.goTo _ _) { h with boot := hnext } hwritten, htalks.withRtc _⟩
  · exact State.recKeeps_bootFail h htalks

theorem State.Talks.recFetched {s : State} {r : Fetched Time × State} (h : s.Talks r.2) :
    s.Talks (State.recFetched r).2 := by
  obtain ⟨f, t⟩ := r
  cases f with
  | failed | got => exact h
  | bad => exact h.takeFault _

/-- Recording bad data leaves the RTC unit alone (R134). -/
theorem State.recFetched_rtc (r : Fetched Time × State) : (State.recFetched r).2.rtc = r.2.rtc := by
  obtain ⟨f, t⟩ := r
  cases f <;> rfl

/-- A bootstrap read that gives a time writes its temporary (R132, R133, R140). -/
theorem RtcUnit.ReadRow.kept {r : RtcUnit} {rs : Regs3} {kept : Time → RtcUnit} (hrow : r.ReadRow rs kept)
    (h : r.Booting) (hwritten : r.Written) (t : Time) : (kept t).Booting ∧ (kept t).Written := by
  cases hrow with
  | time => exact ⟨{ h with boot := rfl }, rfl⟩
  | alarm1 hpc =>
    simp only [RtcUnit.Written, hpc] at hwritten
    exact ⟨{ h with boot := rfl }, hwritten, rfl⟩
  | alarm2 hpc =>
    simp only [RtcUnit.Written, hpc] at hwritten
    obtain ⟨htime, hal1⟩ := hwritten
    exact ⟨{ h with boot := rfl }, htime, hal1, rfl⟩

theorem State.recKeeps_bootRead {s : State} (h : s.rtc.Booting) (hwritten : s.rtc.Written) {rs : Regs3}
    {kept : Time → RtcUnit} (hrow : s.rtc.ReadRow rs kept) : s.RecKeeps s.microStep := by
  obtain ⟨keep, next, hmicro, hkeep⟩ := State.microStep_read hrow
  have hbus := (s.getRegs_spec rs).2
  have htalks : s.Talks (State.recFetched (s.getRegs rs)).2 :=
    ((State.Talks.refl s).transacts (s.busRead3_transacts rs)).recFetched
  have hrtc : (State.recFetched (s.getRegs rs)).2.rtc = s.rtc := (State.recFetched_rtc _).trans hbus.rtc_eq
  rw [hmicro]
  cases ht : (State.recFetched (s.getRegs rs)).1 with
  | some tm =>
    obtain ⟨hboot, hw⟩ := hrow.kept h hwritten tm
    rw [State.bootRead_some ht, hkeep _ tm hrtc]
    exact ⟨.of_booting (s := State.withRtc _ _) hboot hw, htalks.withRtc _⟩
  | none =>
    rw [State.bootRead_none ht]
    exact State.recKeeps_bootFail (hrtc ▸ h) htalks

theorem State.Talks.fixAlarm {s t : State} (h : s.Talks t) (n : AlarmNo) (x : Time) :
    s.Talks (t.fixAlarm n x) := by
  by_cases hm : x.m.val % 5 = 0
  · rw [t.fixAlarm_of_multiple n hm]
    exact h
  · rw [t.fixAlarm_of_not_multiple n hm]
    exact (h.withRtc _).transacts (State.setAlarm_transacts _ n _)

/-- Normalising an alarm rewrites a temporary that is written (R135, R140). -/
theorem State.recKeeps_fix {s : State} (h : s.rtc.Booting) (hwritten : s.rtc.Written) {pc next : RecPc}
    {n : AlarmNo} (hpc : s.rtc.recPc = pc) (hrow : (pc, n, next) ∈ fixRows) : s.RecKeeps s.microStep := by
  have hcase := hrow
  simp only [fixRows, List.mem_cons, Prod.mk.injEq, List.not_mem_nil, or_false] at hcase
  obtain ⟨htime, hal1, hal2⟩ : s.rtc.tmpTime.isSome = true ∧ s.rtc.tmpAl1.isSome = true ∧
      s.rtc.tmpAl2.isSome = true := by
    obtain ⟨rfl, -⟩ | ⟨rfl, -⟩ := hcase <;> simpa only [RtcUnit.Written, hpc] using hwritten
  obtain ⟨t, htmp⟩ : ∃ t, s.rtc.tmpAlarm n = some t := by
    cases n
    · exact Option.isSome_iff_exists.mp hal1
    · exact Option.isSome_iff_exists.mp hal2
  obtain ⟨xs, hbus⟩ := State.fixAlarm_busOnly htmp
  have htalks := (State.Talks.refl s).fixAlarm n t
  rw [State.microStep_fix hpc hrow htmp, State.goTo, hbus.rtc_eq]
  refine ⟨?_, htalks.withRtc _⟩
  obtain ⟨-, rfl, rfl⟩ | ⟨-, rfl, rfl⟩ := hcase
  · exact .of_booting (s := State.withRtc _ _) { h with boot := rfl } ⟨htime, rfl, hal2⟩
  · exact .of_booting (s := State.withRtc _ _) { h with boot := rfl } ⟨htime, hal1, rfl⟩

/-- The first step of `B_COMMIT` puts all three writes in flight (R136). -/
theorem State.recKeeps_bCommit {s : State} (h : s.RecInv) (hpc : s.rtc.recPc = .bCommit) :
    s.RecKeeps s.microStep := by
  obtain ⟨hwritten, -, hready, hoffline, hunlatched⟩ := h
  have hw := hwritten
  simp only [RtcUnit.Written, hpc] at hw
  obtain ⟨htime, hal1, hal2⟩ := hw
  obtain ⟨x, hx⟩ := Option.isSome_iff_exists.mp htime
  obtain ⟨y, hy⟩ := Option.isSome_iff_exists.mp hal1
  obtain ⟨z, hz⟩ := Option.isSome_iff_exists.mp hal2
  rw [State.microStep_bCommit hpc hx hy hz]
  refine ⟨⟨hwritten, ?_, hready, hoffline, hunlatched⟩, (State.Talks.refl s).withRtc _⟩
  simp [RtcUnit.InFlight, hpc]

/-! ### The micro-steps of the steady phase -/

/-- The poll puts the clock's write in flight, whether it gets a time or falls back (R137). -/
theorem State.recKeeps_pollStep {s : State} (hready : s.rtc.ready = true) (hidle : s.rtc.Idle) :
    s.RecKeeps s.pollStep := by
  have hrtc := (State.recFetched_rtc s.getTime).trans s.getTime_spec.2.rtc_eq
  have htalks : s.Talks (State.recFetched s.getTime).2 :=
    ((State.Talks.refl s).transacts (s.busRead3_transacts timeRegs)).recFetched
  obtain ⟨-, hal1, hal2⟩ := hidle
  cases ht : (State.recFetched s.getTime).1 with
  | some tm =>
    rw [State.pollStep_some ht, hrtc]
    exact ⟨.of_steady rfl hready ⟨rfl, hal1, hal2⟩, htalks.withRtc _⟩
  | none =>
    obtain ⟨n, hn⟩ := (State.recFetched s.getTime).2.readCache_draws .recTask .clock
    rw [State.pollStep_none ht, State.pollFallback, hn, hrtc]
    exact ⟨.of_steady rfl hready ⟨rfl, hal1, hal2⟩, (htalks.drawn n).withRtc _⟩

/-- The alarm evaluation leaves `ready` and the writes in flight as they are (R139). -/
theorem State.recKeeps_evalStep {s : State} (hready : s.rtc.ready = true) (hidle : s.rtc.Idle) :
    s.RecKeeps s.evalStep := by
  obtain ⟨n, c, a1, a2, -, -, -, heval⟩ := s.evalStep_eq
  rw [heval, RtcUnit.latchAlarm_eq]
  exact ⟨.of_steady rfl hready hidle, ((State.Talks.refl s).drawn n).withRtc _⟩

/-! ### The turn -/

theorem State.recKeeps_microStep {s : State} (h : s.RecInv) (hidle : s.rtc.Idle) : s.RecKeeps s.microStep := by
  have hwritten := h.written
  have hready := h.ready
  have hboot := RtcUnit.Booting.of_recInv h (hidle := hidle)
  cases hpc : s.rtc.recPc with
  | bSqw | bInt | bA1f | bA2f =>
    rw [hpc] at hboot
    rw [State.microStep, hpc]
    exact State.recKeeps_initStep (hboot rfl) _ _ rfl trivial
  | bRdt => exact State.recKeeps_bootRead (hboot (by rw [hpc]; rfl)) hwritten (.time hpc)
  | bRda1 => exact State.recKeeps_bootRead (hboot (by rw [hpc]; rfl)) hwritten (.alarm1 hpc)
  | bRda2 => exact State.recKeeps_bootRead (hboot (by rw [hpc]; rfl)) hwritten (.alarm2 hpc)
  | bFix1 => exact State.recKeeps_fix (hboot (by rw [hpc]; rfl)) hwritten hpc (.head _)
  | bFix2 => exact State.recKeeps_fix (hboot (by rw [hpc]; rfl)) hwritten hpc (.tail _ (.head _))
  | bCommit => exact State.recKeeps_bCommit h hpc
  | sRead =>
    rw [hpc] at hready
    rw [State.microStep, hpc]
    exact State.recKeeps_pollStep hready hidle
  | sCommit =>
    rw [hpc] at hready
    rw [State.microStep, hpc]
    exact ⟨.of_steady rfl hready hidle, (State.Talks.refl s).withRtc _⟩
  | sEval =>
    rw [hpc] at hready
    rw [State.microStep, hpc]
    exact State.recKeeps_evalStep hready hidle

/-- Writes of `RecTask` are pending only at its two commits (R136, R138). -/
theorem RtcUnit.InFlight.bCommit_or_sCommit {r : RtcUnit} (h : r.InFlight) (hpend : ¬ r.Idle) :
    r.recPc = .bCommit ∨ r.recPc = .sCommit := by
  unfold RtcUnit.InFlight at h
  cases hpc : r.recPc with
  | bCommit => exact .inl rfl
  | sCommit => exact .inr rfl
  | bSqw | bInt | bA1f | bA2f | bRdt | bRda1 | bRda2 | bFix1 | bFix2 | sRead | sEval =>
    rw [hpc] at h
    exact absurd h hpend

/-- Phase 2 empties every slot of `RecTask`, and leads into the steady phase or on in it (R136, R138). -/
theorem State.recKeeps_recPhase2 {s : State} (h : s.RecInv) (hpend : ¬ s.rtc.Idle) :
    s.RecKeeps s.recPhase2 := by
  have htalks := State.Talks.refl s
  have hready := h.ready
  obtain hpc | hpc := h.inFlight.bCommit_or_sCommit hpend
  · rw [State.recPhase2_bCommit hpc]
    exact ⟨.of_steady rfl rfl ⟨rfl, rfl, rfl⟩, htalks.withRtc _⟩
  · rw [hpc] at hready
    rw [State.recPhase2_sCommit hpc]
    exact ⟨.of_steady rfl hready ⟨rfl, rfl, rfl⟩, htalks.withRtc _⟩

/-- Beyond its own unit and the bus a turn of `RecTask` writes nothing (R177). -/
theorem State.Inv.recTurn {s : State} (h : s.Inv) : s.recTurn.Inv := by
  have hkeeps : s.RecKeeps s.recTurn := by
    unfold State.recTurn
    split
    case isTrue hpend =>
      exact State.recKeeps_recPhase2 h.recon fun hidle =>
        Bool.false_ne_true ((s.recPending_eq_false_iff.mpr hidle).symm.trans hpend)
    case isFalse hpend =>
      exact State.recKeeps_microStep h.recon (s.recPending_eq_false_iff.mp (Bool.eq_false_of_not_eq_true hpend))
  obtain ⟨hcfg, hdisp, hled, -, -, hclock, hal1, hal2⟩ := s.recFrame_recTurn
  obtain ⟨hrecon, htalks⟩ := hkeeps
  exact ⟨h.display.of_eq hdisp, h.range.of_eq hcfg (by rw [hdisp]) hled, hrecon,
    h.host.of_eq (by rw [hdisp]) hclock hal1 hal2, htalks.bus h.bus, htalks.sim h.sim⟩

/-! ### The step -/

theorem State.Inv.turn {s : State} (h : s.Inv) (a : Agent) : ∃ t, s.turn a = .next t ∧ t.Inv := by
  cases a with
  | host => exact h.hostTurn
  | muxIsr => exact ⟨_, rfl, h.muxTurn⟩
  | recTask => exact ⟨_, rfl, h.recTurn⟩
  | ledTimer => exact ⟨_, rfl, h.ledTick⟩

end Sys2Proof.Machine
end

section
/-! PROOFS. The invariants of the block. -/

namespace Sys2Proof.Proofs

open Sys2Proof.Machine

/-- Settles O57: the choice of the agent takes only inputs, and the turn of each agent keeps the invariants. -/
theorem stepKeepsInv : Obligations.StepKeepsInv := by
  intro s t h hstep
  obtain ⟨x, hx, hsim⟩ := s.nextAgent_snd
  obtain ⟨u, hu, hinv⟩ := (h.withInp hsim).turn s.nextAgent.1
  rw [step, hx, hu] at hstep
  exact Host.Outcome.next.inj hstep ▸ hinv

end Sys2Proof.Proofs
end

section
/-! SUPPORT. A word of the opcode table read from its bytes (R47), the words of `TIME` terms whose operand is no
legal Time (R62, R72), and the word presented to the Host (R178). -/

namespace Sys2Proof

/-- The four bytes of a word are read back as that word (R47). -/
theorem decodeBytes_bytesOfWord (w : Command) : decodeBytes (bytesOfWord w) = decodeWord w := by
  refine congrArg decodeWord (BitVec.eq_of_toNat_eq ?_)
  rw [wordOfBytes, BitVec.toNat_ofNat]
  simp only [toNat_ofNat_bits]
  simp only [bits]
  omega

theorem Decoded.toOption_eq_some_iff {d : Decoded} {i : Instr} : d.toOption = some i ↔ d = .instr i := by
  cases d <;> simp [Decoded.toOption]

/-- An instruction read from a word of the opcode table is what that word decodes to. -/
theorem decodeTableWord_eq_some_iff {nbits w : Nat} {i : Instr} :
    decodeTableWord nbits w = some i ↔ decodeWord (tableWord nbits w) = .instr i := by
  rw [decodeTableWord, decodeBytes_bytesOfWord, Decoded.toOption_eq_some_iff]

/-! ### Illegal Time operands -/

section

variable {w : Command} {h : BitVec 5} {m s : BitVec 6}

theorem legalTimeFields_eq_false (hbad : ¬ (h.toNat ≤ 23 ∧ m.toNat ≤ 59 ∧ s.toNat ≤ 59)) :
    legalTimeFields h m s = false :=
  Bool.eq_false_of_not_eq_true (mt (Machine.legalTimeFields_iff h m s).mp hbad)

theorem decodeTimeOperand_of_illegal {mk : BitVec 5 → BitVec 6 → BitVec 6 → Instr} {n : Nat}
    (hlow : bits w 25 0 = lowX h m s n) (hbad : ¬ (h.toNat ≤ 23 ∧ m.toNat ≤ 59 ∧ s.toNat ≤ 59)) :
    decodeTimeOperand w mk = .reserved .illegalTime := by
  obtain ⟨hh, hm, hs⟩ : bits w 16 12 = h.toNat ∧ bits w 11 6 = m.toNat ∧ bits w 5 0 = s.toNat := by
    simp only [lowX, bits] at hlow ⊢
    omega
  exact if_neg (by rwa [hh, hm, hs])

theorem decodeX_of_illegal {mk : BitVec 5 → BitVec 6 → BitVec 6 → BitVec 8 → Instr} {n : BitVec 8}
    (hlow : bits w 25 0 = lowX h m s n.toNat) (hbad : ¬ (h.toNat ≤ 23 ∧ m.toNat ≤ 59 ∧ s.toNat ≤ 59)) :
    decodeX w mk = .reserved .illegalTime := by
  have hzero : bits w 17 17 = 0 := by
    simp only [lowX, bits] at hlow ⊢
    omega
  simp [decodeX, hzero, decodeTimeOperand_of_illegal hlow hbad]

theorem decodeX0_of_illegal {mk : BitVec 5 → BitVec 6 → BitVec 6 → Instr} (hlow : bits w 25 0 = lowX h m s 0)
    (hbad : ¬ (h.toNat ≤ 23 ∧ m.toNat ≤ 59 ∧ s.toNat ≤ 59)) : decodeX0 w mk = .reserved .illegalTime := by
  have hzero : bits w 25 17 = 0 := by
    simp only [lowX, bits] at hlow ⊢
    omega
  simp [decodeX0, hzero, decodeTimeOperand_of_illegal hlow hbad]

end

end Sys2Proof

namespace Sys2Proof.Machine

/-- Without a legal operand a `TIME` command is the refusal of its word (R62, log 18). -/
theorem State.timeCommand_of_illegal {h : BitVec 5} {m sec : BitVec 6}
    (hbad : ¬ (h.toNat ≤ 23 ∧ m.toNat ≤ 59 ∧ sec.toNat ≤ 59)) (s : State) (w : Command) (f : Time → Time) :
    s.timeCommand h m sec w f = s.refuse (.reservedEncoding w) := by
  rw [State.timeCommand, operandTime_illegal h m sec hbad]

/-- Phase 2 leaves nothing of the Host's pending (R39). -/
theorem State.commitHost_hostPending (s : State) : s.commitHost.hostPending = false :=
  s.commitHost.hostPending_eq_false_iff.mpr ⟨Six.get_fill none, rfl, rfl, rfl⟩

end Sys2Proof.Machine
end

section
/-! PROOFS. Words of the spec, the refused words of `TIME` terms, and the step that a word or an agent names. -/

namespace Sys2Proof.Proofs

open Sys2Proof.Machine

/-- Settles O3: each word is the encoding of its instruction. -/
theorem specWordsDecode : Obligations.SpecWordsDecode :=
  ⟨decodeOfEncode (.dspWrgrid 1 0x00DB true false false) rfl, decodeOfEncode (.dspSetbright 50) rfl,
    decodeOfEncode (.rtcWrreg .agingOffset 5) rfl, decodeOfEncode (.rtcUpdreg .control 0 true) rfl,
    decodeOfEncode (.rtcSetdate 29 2 2024) rfl, decodeOfEncode (.rtcSetflag .intOut true) rfl,
    decodeOfEncode (.recSetal1 13 30 0) rfl, decodeOfEncode (.recRead .al1) rfl,
    decodeOfEncode (.timeAddm 23 59 0 1) rfl, decodeOfEncode (.pwmSetduty 4 128) rfl,
    decodeOfEncode (.stlAlarmleds true false) rfl, decodeOfEncode (.stripNudge .brightness true) rfl⟩

/-- Settles O38: the fields of the word are the operand's, and it fails the last check of its format; the term runs
as the refusal of that word. -/
theorem illegalTimeOperandIsRefused : Obligations.IllegalTimeOperandIsRefused := by
  intro s h m sec n hbad i hi
  have hrefused := s.timeCommand_of_illegal hbad
  have hwf := legalTimeFields_eq_false hbad
  have hop := bits_encode_op i
  have hlow := bits_encode_low i
  simp only [List.mem_cons, List.not_mem_nil, or_false] at hi
  obtain rfl | rfl | rfl | rfl | rfl | rfl := hi
  · exact ⟨hwf, (decodeWord_timeAddh _ hop).trans (decodeX_of_illegal hlow hbad),
      congrArg Host.Outcome.next (hrefused _ _)⟩
  · exact ⟨hwf, (decodeWord_timeAddm _ hop).trans (decodeX_of_illegal hlow hbad),
      congrArg Host.Outcome.next (hrefused _ _)⟩
  · exact ⟨hwf, (decodeWord_timeSubh _ hop).trans (decodeX_of_illegal hlow hbad),
      congrArg Host.Outcome.next (hrefused _ _)⟩
  · exact ⟨hwf, (decodeWord_timeSubm _ hop).trans (decodeX_of_illegal hlow hbad),
      congrArg Host.Outcome.next (hrefused _ _)⟩
  · exact ⟨hwf, (decodeWord_timeAdds _ hop).trans (decodeX_of_illegal hlow hbad),
      congrArg Host.Outcome.next (hrefused _ _)⟩
  · exact ⟨hwf, (decodeWord_timeNorm5 _ hop).trans (decodeX0_of_illegal hlow hbad),
      congrArg Host.Outcome.next (hrefused _ _)⟩

/-- Settles O6: once a pending write is committed the Host has none, so its next turn runs the word placed, on a
state that has given up nothing but that word and that turn. -/
theorem stepAfterWithFetchWord : Obligations.StepAfterWithFetchWord := by
  intro s nbits w i hdec
  let s1 := if s.hostPending then s.commitHost else s
  have hquiet : s1.hostPending = false := by
    unfold s1
    split
    · exact s.commitHost_hostPending
    · next hpend => exact Bool.eq_false_of_not_eq_true hpend
  exact stepRunsTheDecodedWord (s.withFetchWord nbits w) s1.inp.sched (tableWord nbits w) s1.inp.words i rfl rfl
    hquiet (decodeTableWord_eq_some_iff.mp hdec)

/-- Settles O7: with the display off the turn of `MuxIsr` is no step of its own. -/
theorem stepIsTheNextAgentsTurn : Obligations.StepIsTheNextAgentsTurn := by
  intro s a as hsched
  have hstep := step_of_sched s a as hsched
  refine ⟨hstep, fun ha hoff => hstep.trans ?_⟩
  subst ha
  exact congrArg Host.Outcome.next (if_neg (Bool.eq_false_iff.mp hoff))

end Sys2Proof.Proofs
end

section
/-! SUPPORT. How many of the timer's counter values lie below a compare value and how many do not (R98). -/

namespace Sys2Proof.Machine

theorem countP_lt_range (b n : Nat) : (List.range n).countP (fun c => decide (c < b)) = min b n := by
  induction n with
  | zero => simp
  | succ n ih =>
    rw [List.range_succ, List.countP_append, ih]
    by_cases h : n < b
    · simp [h]
      omega
    · simp [h]
      omega

theorem countP_ge_range (b n : Nat) : (List.range n).countP (fun c => decide (b ≤ c)) = n - min b n := by
  have hall := List.length_eq_countP_add_countP (fun c => decide (c < b)) (l := List.range n)
  rw [List.length_range, countP_lt_range] at hall
  have hnot : (fun c => decide (b ≤ c)) = fun c => decide ¬ decide (c < b) = true := by
    funext c
    simp
  rw [hnot]
  omega

/-- A visible count is a count of the values where the gate is open. -/
theorem State.visibleCount_eq (s : State) :
    s.visibleCount = (List.range (s.cfg.timerTop + 1)).countP s.gate := List.countP_eq_length_filter.symm

theorem State.gate_of_below {s : State} (h : s.cfg.gatePolarity = .visibleBelow) :
    s.gate = fun c => decide (c < s.disp.brightCmp) := by
  funext c
  rw [State.gate, h]

theorem State.gate_of_atOrAbove {s : State} (h : s.cfg.gatePolarity = .visibleAtOrAbove) :
    s.gate = fun c => decide (s.disp.brightCmp ≤ c) := by
  funext c
  rw [State.gate, h]

/-- A segment is lit by its digit's line, its latch bit and the gate, with the display supplied (R99). -/
theorem State.lit_iff (s : State) (k : Fin 6) (j : Fin 17) (c : Nat) :
    s.lit k j c = true ↔
      s.disp.dispEnabled = true ∧ s.disp.boostEn = true ∧ s.disp.heaterEn = true ∧ s.disp.digEn.get k = true ∧
        s.disp.srLatch.getLsbD j.val = true ∧ s.gate c = true := by
  simp only [State.lit, Bool.and_eq_true, and_assoc]

end Sys2Proof.Machine
end

section
/-! PROOFS. What is seen of the display, and its switching on and off. -/

namespace Sys2Proof.Proofs

open Sys2Proof.Machine

/-- Settles O15: a lit digit's line is high, and under the invariant only the current digit's can be. -/
theorem atMostOneDigitLit : Obligations.AtMostOneDigitLit := by
  intro s
  refine ⟨s.lit_iff, fun hinv k j c hlit => ?_⟩
  have hcurrent (k' : Fin 6) (j' : Fin 17) (c' : Nat) (hlit' : s.lit k' j' c' = true) : k' = s.disp.muxIdx := by
    obtain ⟨-, -, -, hdigit, -, -⟩ := (s.lit_iff k' j' c').mp hlit'
    exact hinv.oneDigit k' hdigit
  obtain ⟨-, -, -, hdigit, hlatch, hgate⟩ := (s.lit_iff k j c).mp hlit
  exact ⟨hcurrent k j c hlit, hinv.latched k hdigit ▸ hlatch, hgate,
    fun k' j' c' hlit' => (hcurrent k' j' c' hlit').trans (hcurrent k j c hlit).symm⟩

/-- Settles O16: the gate is a comparison with the compare value, and its open values are counted. -/
theorem gateVisibleFraction : Obligations.GateVisibleFraction := by
  intro s
  rw [State.visibleCount_eq]
  refine ⟨fun hbelow => ?_, fun habove => ?_⟩
  · rw [State.gate_of_below hbelow]
    exact ⟨fun c => decide_eq_true_iff, countP_lt_range _ _⟩
  · rw [State.gate_of_atOrAbove habove]
    exact ⟨fun c => decide_eq_true_iff, countP_ge_range _ _⟩

/-- Settles O18: each command acts where the display is not yet as it asks, and only answers where it is. -/
theorem enableDisableSwitchTheDisplay : Obligations.EnableDisableSwitchTheDisplay := by
  intro s
  refine ⟨decodeOfEncode .dspEnable rfl, decodeOfEncode .dspDisable rfl, ?_, ?_⟩
  · rw [exec, execDspEnable]
    cases s.disp.dispEnabled <;> rfl
  · rw [exec, execDspDisable]
    cases s.disp.dispEnabled <;> rfl

end Sys2Proof.Proofs
end

section
/-! SUPPORT. The parameters of this machine are legal and decided (R6), and the units of the reset state meet the
invariants (R186, R188). -/

namespace Sys2Proof.Machine

/-- The three decided values are under no constraint of R6. -/
theorem legal_decided (p : Params) : p.decided.legal = p.legal := rfl

theorem someLegal_legal : Params.someLegal.legal = true := by decide

/-- The parameters are the free ones where those are legal, and legal ones where they are not. -/
theorem params_legal : Config.params.legal = true := by
  rw [Config.params, legal_decided]
  split
  · assumption
  · exact someLegal_legal

theorem State.reset_cleanReset : State.reset.CleanReset :=
  ⟨Config.params, Config.resetMuxIdx, Config.resetStage, Config.resetLatch, Inputs.reset, params_legal, rfl, rfl⟩

namespace State.CleanReset

variable {s : State}

theorem legal (h : s.CleanReset) : s.cfg.legal = true := by
  obtain ⟨p, mux, stage, latch, inp, hlegal, -, rfl⟩ := h
  exact hlegal

/-- Reset leaves the display off, with every line low (R186). -/
theorem displayInv (h : s.CleanReset) : s.DisplayInv := by
  obtain ⟨mux, stage, latch, hdisp⟩ := h.disp_eq
  have hlow (k : Fin 6) : s.disp.digEn.get k = false := by
    rw [hdisp]
    exact Six.get_fill false k
  refine ⟨fun k hk => absurd hk (by simp [hlow k]), fun k hk => absurd hk (by simp [hlow k]), fun _ => hlow,
    ?_, ?_, ?_, ?_⟩ <;> rw [hdisp] <;> rfl

/-- The reset values of the parameters' cells are legal, and every channel and the flash are at 0 (R186). -/
theorem rangeInv (h : s.CleanReset) : s.RangeInv := by
  obtain ⟨mux, stage, latch, hdisp⟩ := h.disp_eq
  obtain ⟨-, -, hbright⟩ := Params.legal_bright h.legal
  obtain ⟨-, -, hb, hcct⟩ := Params.legal_strip h.legal
  rw [State.rangeInv_iff, hdisp, h.led_eq]
  refine ⟨h.legal, hbright, fun c => ?_, Nat.zero_le _, iff_of_true rfl rfl, hb, hcct⟩
  rw [LedUnit.reset, Six.get_fill]
  exact ⟨Nat.zero_le _, Nat.zero_le _, Nat.zero_le _⟩

/-- `RecTask` begins its bootstrap with nothing written, pending or reached (R186). -/
theorem recInv (h : s.CleanReset) : s.RecInv := by
  have hboot : RtcUnit.reset.Booting := ⟨rfl, ⟨rfl, rfl, rfl⟩, rfl, rfl, rfl⟩
  have hwritten : RtcUnit.reset.Written := trivial
  rw [← h.rtc_eq] at hboot hwritten
  exact .of_booting hboot hwritten

/-- The Host begins with no write in flight (R186). -/
theorem hostInv (h : s.CleanReset) : s.HostInv := by
  obtain ⟨mux, stage, latch, hdisp⟩ := h.disp_eq
  have hslots : s.hostSlots = 0 := by
    rw [State.hostSlots, hdisp, h.rtc_eq]
    rfl
  exact hslots.trans_le (Nat.zero_le 1)

theorem busInv (h : s.CleanReset) : s.BusInv := by
  rw [State.BusInv, h.out_eq]
  rfl

end State.CleanReset

end Sys2Proof.Machine
end

section
/-! PROOFS. The invariants after reset. -/

namespace Sys2Proof.Proofs

open Sys2Proof.Machine

/-- Settles O59: unit by unit, from the reset values and the legality of the parameters. -/
theorem cleanResetMeetsInv : Obligations.CleanResetMeetsInv :=
  ⟨State.reset_cleanReset,
    fun _ h hsim => ⟨h.displayInv, h.rangeInv, h.recInv, h.hostInv, h.busInv, hsim⟩⟩

end Sys2Proof.Proofs
end

section
/-! SUPPORT. The strip's parameters and its mix (R163 to R165), and the alarm setters of the Host with valid
operands (R111, R122, R146). -/

namespace Sys2Proof.Machine

/-! ### The strip -/

/-- A parameter moved up stops at its top (R165). -/
theorem nudged_up (v step top : Nat) : nudged v step top true = min (v + step) top := by
  simp only [nudged, if_true]
  omega

/-- A parameter moved down stops at 0, and at its top where it stood above it (R165). -/
theorem nudged_down (v step top : Nat) : nudged v step top false = min (v - step) top := by
  simp only [nudged, Bool.false_eq_true, if_false]
  omega

/-- The strip mix sets the targets of channels 4 and 5 and no other cell of a channel (R163). -/
theorem LedUnit.mixed_get (l : LedUnit) (p : Params) (c : Fin 6) :
    (l.mixed p).chan.get c =
      { l.chan.get c with
        target :=
          if c = 5 then (l.stripTargets p).2
          else if c = 4 then (l.stripTargets p).1
          else (l.chan.get c).target } := by
  have haims : l.mixed p = (l.aim 4 (l.stripTargets p).1).aim 5 (l.stripTargets p).2 := rfl
  rw [haims, LedUnit.aim_get, LedUnit.aim_get]

/-- The linear mix, with the strip on or off (R163). -/
theorem LedUnit.stripTargets_linear {p : Params} (h : p.cctMix = .linear) (l : LedUnit) :
    l.stripTargets p =
      (if l.stripOn = true then l.stripB * (p.cctMax - l.stripCct) / p.cctMax else 0,
        if l.stripOn = true then l.stripB * l.stripCct / p.cctMax else 0) := by
  rw [LedUnit.stripTargets, mixOf, h]
  split <;> rfl

/-! ### The alarm setters -/

/-- The chip's setter of an alarm (R122). -/
def Instr.setAlarm (n : AlarmNo) (h m sec : BitVec 8) : Instr :=
  match n with
  | .one => .rtcSetal1 h m sec
  | .two => .rtcSetal2 h m sec

/-- The chip's getter of an alarm (R121). -/
def Instr.getAlarm (n : AlarmNo) : Instr :=
  match n with
  | .one => .rtcGetal1
  | .two => .rtcGetal2

/-- With valid operands an alarm's setter is its write (R111, R122). -/
theorem exec_setAlarm_valid (s : State) (n : AlarmNo) {h m sec : BitVec 8}
    (hv : h.toNat < 24 ∧ m.toNat < 60 ∧ sec.toNat < 60) :
    exec (Instr.setAlarm n h m sec) s =
      .next (State.answerBool (s.setAlarm n (timeOf h.toNat m.toNat sec.toNat))) := by
  rw [← State.setterCommand_some, ← setterTime_valid h m sec hv]
  cases n <;> rfl

theorem exec_getAlarm (s : State) (n : AlarmNo) :
    exec (Instr.getAlarm n) s = .next ((s.getAlarm n).2.answerFetched .optTime (s.getAlarm n).1) := by
  cases n <;> rfl

/-- With valid operands a cache setter ends as the chip's own setter does, and its slot of the alarm's cache is
filled whatever the bus answered (R146). -/
theorem State.setCached_al1_some (s : State) (t : Time) (write : Time → Bool × State) :
    s.setCached .al1 (some t) write =
      (State.answerBool (write t)).withRtc
        { (write t).2.rtc with al1Pend := { (write t).2.rtc.al1Pend with host := some t } } := rfl

theorem State.setCached_al2_some (s : State) (t : Time) (write : Time → Bool × State) :
    s.setCached .al2 (some t) write =
      (State.answerBool (write t)).withRtc
        { (write t).2.rtc with al2Pend := { (write t).2.rtc.al2Pend with host := some t } } := rfl

end Sys2Proof.Machine
end

section
/-! PROOFS. The strip's commands, and the cache setters of the alarms. -/

namespace Sys2Proof.Proofs

open Sys2Proof.Machine Sys2Proof.Laws.TableWord

/-- Settles O42: each form sets the strip's three cells and then mixes, and the mix sets two targets. -/
theorem stripCommandsMix : Obligations.StripCommandsMix := by
  intro s sel up
  refine ⟨decodeOfEncode .stripToggle rfl, decodeOfEncode (.stripNudge sel up) rfl, fun i on b cct hi => ?_⟩
  have hexec : exec i s = .next ((s.withLed (LedUnit.mixed s.cfg
      { s.led with stripOn := on, stripB := b, stripCct := cct })).answer .unit) := by
    obtain ⟨rfl, rfl, rfl, rfl⟩ | ⟨rfl, rfl, rfl, rfl⟩ | ⟨rfl, rfl, rfl, rfl⟩ | ⟨rfl, rfl, rfl, rfl⟩ |
      ⟨rfl, rfl, rfl, rfl⟩ := hi
    · rfl
    · rw [← nudged_up]
      rfl
    · rw [← nudged_down]
      rfl
    · rw [← nudged_up]
      rfl
    · rw [← nudged_down]
      rfl
  let l : LedUnit := { s.led with stripOn := on, stripB := b, stripCct := cct }
  have hget := l.mixed_get s.cfg
  refine ⟨_, hexec, rfl, fun c => ?_, fun hlinear => ?_, fun hlinear => ?_⟩
  · show (l.mixed s.cfg).chan.get c = _
    split
    case isTrue => rw [State.answer_led, State.withLed_led, hget]
    case isFalse hc =>
      obtain ⟨h4, h5⟩ := not_or.mp hc
      rw [hget, if_neg h5, if_neg h4]
  · exact (congrArg Channel.target (hget 4)).trans (congrArg Prod.fst (LedUnit.stripTargets_linear hlinear l))
  · exact (congrArg Channel.target (hget 5)).trans (congrArg Prod.snd (LedUnit.stripTargets_linear hlinear l))

/-- Settles O31: with valid operands each setter's chip write is that of `RTC.SETAL1` or `RTC.SETAL2`, which writes
no cell, and its slot of the alarm's cache is then filled. -/
theorem cachedAlarmSetters : Obligations.CachedAlarmSetters := by
  intro s h m sec
  refine ⟨decodeOfEncode (.recSetal1 h m sec) rfl, decodeOfEncode (.recSetal2 h m sec) rfl, _, _, rfl, rfl, ?_⟩
  split
  case isFalse hv =>
    rw [setterTime_invalid h m sec hv]
    exact ⟨s.setCached_none .al1 _, s.setCached_none .al2 _⟩
  case isTrue hv =>
    let tm := timeOf h.toNat m.toNat sec.toNat
    obtain ⟨hh, hm, hs⟩ := timeOf_val h.toNat m.toNat sec.toNat hv
    have hrtc (n : AlarmNo) : (s.setAlarm n tm).2.rtc = s.rtc := (s.setAlarm_spec n tm).2.rtc_eq
    rw [setterTime_valid h m sec hv, State.setCached_al1_some, State.setCached_al2_some, hrtc, hrtc]
    exact ⟨_, _, tm, exec_setAlarm_valid s .one hv, exec_setAlarm_valid s .two hv, hh, hm, hs, rfl, rfl⟩

end Sys2Proof.Proofs
end

section
/-! SUPPORT. The reference simulator's bytes after a write (R109): one byte stored, and an alarm's bytes with its mask
bit; the registers' addresses apart (R6); and an alarm's byte as its getter reads it (R54). -/

namespace Sys2Proof.Machine

/-! ### Bytes stored -/

/-- A byte stored is read back at its address, and nowhere else. -/
theorem Memory.read_write (m : Memory) (hm : Memory.wf m = true) (a b : Nat) (x : Byte) :
    Memory.read (Memory.write m a x) b = if b = a then x else Memory.read m b := by
  split
  · next h => rw [h, Memory.read_write_same m a x hm]
  · next h => rw [Memory.read_write_other m a b x h]

theorem storeItems_read1 (m : Memory) (hm : Memory.wf m = true) (a : Byte) (x : Byte) (b : Nat) :
    Memory.read (storeItems m [(a, x)]) b = if b = a.toNat then x else Memory.read m b :=
  Memory.read_write m hm a.toNat b x

/-- A command's answer takes nothing of the inputs. -/
theorem State.answerFetched_inp {α : Type} (s : State) (v : Option α → Value) (f : Fetched α) :
    (s.answerFetched v f).inp = s.inp := by
  cases f <;> rfl

/-- The alarm's bytes as written, before its mask bit is set (R54, R122). -/
def alarmStored (p : Params) (n : AlarmNo) (h m sec : Nat) (old : Nat → Byte) (a : Nat) : Byte :=
  if a = (p.rtcAddr (alarmRegs n).r3).toNat then bcd h
  else if a = (p.rtcAddr (alarmRegs n).r2).toNat then bcd m
  else if a = (p.rtcAddr (alarmRegs n).r1).toNat then bcd sec
  else old a

/-- An alarm's setter stores the three bytes and then sets the mask bit of the byte now at the mask's address, or
stores nothing where the transaction fails (R109, R113, R122). -/
theorem State.setAlarm_stores {s : State} {c : SimRtc} (hsim : s.inp.sim = some c)
    (hwf : Memory.wf c.simReg = true) (n : AlarmNo) {h m sec : Nat} (hv : h < 24 ∧ m < 60 ∧ sec < 60) :
    ∃ mem, (s.setAlarm n (timeOf h m sec)).2.inp.sim = some ⟨mem, c.script.tail⟩ ∧
      ∀ a, Memory.read mem a =
        if c.script.headD true = false then Memory.read c.simReg a
        else if a = (s.cfg.maskPlace n).addr.toNat then
          setBit (alarmStored s.cfg n h m sec (Memory.read c.simReg) a) (s.cfg.maskPlace n).bit true
        else alarmStored s.cfg n h m sec (Memory.read c.simReg) a := by
  refine ⟨_, s.setAlarm_sim c hsim n _, fun a => ?_⟩
  rw [alarmItems_timeOf s.cfg n hv]
  cases c.script.headD true with
  | false => rfl
  | true =>
    have hstored := storeItems_read3 c.simReg hwf (s.cfg.rtcAddr (alarmRegs n).r1)
      (s.cfg.rtcAddr (alarmRegs n).r2) (s.cfg.rtcAddr (alarmRegs n).r3) (bcd sec) (bcd m) (bcd h)
    simp only [Params.atAddrs, List.map_cons, List.map_nil, if_true, Bool.true_eq_false, if_false]
    rw [Memory.read_write _ (storeItems_wf _ _ hwf)]
    split
    · next ha => rw [ha, hstored, alarmStored]
    · rw [hstored, alarmStored]

/-! ### The addresses of the registers (R6, R35) -/

/-- The addresses stand in the order of the register numbers (R35). -/
theorem Params.rtcAddr_eq_getElem (p : Params) (r : RtcReg) :
    p.rtcAddrs.toList[r.code]? = some (p.rtcAddr r) := by
  cases r <;> rfl

/-- With legal parameters two registers have two addresses (R6). -/
theorem Params.rtcAddr_injective {p : Params} (h : p.legal = true) : Function.Injective p.rtcAddr := by
  obtain ⟨-, hrtc, -⟩ := Params.legal_parts h
  have hnodup : p.rtcAddrs.toList.Nodup := of_decide_eq_true hrtc
  intro r q hrq
  have hr := Params.rtcAddr_eq_getElem p r
  have hq := Params.rtcAddr_eq_getElem p q
  rw [← hrq] at hq
  have hcode : r.code = q.code := by
    obtain ⟨hlt, -⟩ := List.getElem?_eq_some_iff.mp hr
    exact (List.getElem?_inj hlt hnodup).mp (hr.trans hq.symm)
  exact Option.some.inj ((RtcReg.ofCode_code r).symm.trans (hcode ▸ RtcReg.ofCode_code q))

theorem alarmRegs_ne (n : AlarmNo) :
    (alarmRegs n).r1 ≠ (alarmRegs n).r2 ∧ (alarmRegs n).r1 ≠ (alarmRegs n).r3 ∧
      (alarmRegs n).r2 ≠ (alarmRegs n).r3 := by
  cases n <;> decide

/-- With legal parameters none of the alarm's bytes is stored over another. -/
theorem alarmStored_at_regs {p : Params} (hlegal : p.legal = true) (n : AlarmNo) (h m sec : Nat)
    (old : Nat → Byte) :
    alarmStored p n h m sec old (p.rtcAddr (alarmRegs n).r1).toNat = bcd sec ∧
      alarmStored p n h m sec old (p.rtcAddr (alarmRegs n).r2).toNat = bcd m ∧
      alarmStored p n h m sec old (p.rtcAddr (alarmRegs n).r3).toNat = bcd h := by
  have hne {r q : RtcReg} (hrq : r ≠ q) : (p.rtcAddr r).toNat ≠ (p.rtcAddr q).toNat :=
    fun e => hrq (Params.rtcAddr_injective hlegal (BitVec.eq_of_toNat_eq e))
  obtain ⟨h12, h13, h23⟩ := alarmRegs_ne n
  refine ⟨?_, ?_, if_pos rfl⟩
  · rw [alarmStored, if_neg (hne h13), if_neg (hne h12), if_pos rfl]
  · rw [alarmStored, if_neg (hne h23), if_pos rfl]

/-! ### An alarm's byte read back -/

/-- The byte of `v`, with or without a mask bit at bit 7 (R113). -/
def AlarmByte (x : Byte) (v : Nat) : Prop := x = bcd v ∨ x = setBit (bcd v) 7 true

/-- The masks of the minute and the second clear bit 7 and nothing else of a byte below 60. -/
theorem AlarmByte.and_0x7F {x : Byte} {v : Nat} (h : AlarmByte x v) (hv : v < 60) : x &&& 0x7F = bcd v := by
  have hall : ∀ v < 60, bcd v &&& 0x7F = bcd v ∧ setBit (bcd v) 7 true &&& 0x7F = bcd v := by decide
  obtain ⟨hplain, hmasked⟩ := hall v hv
  obtain rfl | rfl := h
  · exact hplain
  · exact hmasked

/-- The mask of the hour clears bits 7 and 6, and no other of a byte below 24. -/
theorem AlarmByte.and_0x3F {x : Byte} {v : Nat} (h : AlarmByte x v) (hv : v < 24) : x &&& 0x3F = bcd v := by
  have hall : ∀ v < 24, bcd v &&& 0x3F = bcd v ∧ setBit (bcd v) 7 true &&& 0x3F = bcd v := by decide
  obtain ⟨hplain, hmasked⟩ := hall v hv
  obtain rfl | rfl := h
  · exact hplain
  · exact hmasked

/-- A byte that is `bcd v` under the mask of its row is read as `v` (R11, R54). -/
theorem decodeForm_decode_bcd {mask x : Byte} {v high : Nat} (hx : x &&& mask = bcd v) (hv : v ≤ high)
    (hhigh : high ≤ 99) : DecodeForm.decode ⟨mask, 0, 0, high⟩ x = some v := by
  have hnat := bcd_toNat (hv.trans hhigh)
  rw [decodeForm_decode, hx, bcdValid_iff, unbcd, hiNibble, loNibble, hnat]
  dsimp only
  omega

/-- Under the usual masks an alarm's bytes are read back as its time (R54, R121). -/
theorem decodeTime_alarm {p : Params} (hasec : p.masks.asec = 0x7F) (hamin : p.masks.amin = 0x7F)
    (hahour : p.masks.ahour = 0x3F) (n : AlarmNo) {x y z : Byte} {h m sec : Nat} (hx : AlarmByte x sec)
    (hy : AlarmByte y m) (hz : AlarmByte z h) (hv : h < 24 ∧ m < 60 ∧ sec < 60) :
    p.decodeTime (alarmRegs n) (some ⟨x, y, z⟩) = .got (timeOf h m sec) := by
  obtain ⟨hh, hm, hs⟩ := hv
  have hsec : DecodeForm.decode ⟨p.masks.asec, 0, 0, 59⟩ x = some sec :=
    decodeForm_decode_bcd (hasec ▸ hx.and_0x7F hs) (by omega) (by decide)
  have hmin : DecodeForm.decode ⟨p.masks.amin, 0, 0, 59⟩ y = some m :=
    decodeForm_decode_bcd (hamin ▸ hy.and_0x7F hm) (by omega) (by decide)
  have hhour : DecodeForm.decode ⟨p.masks.ahour, 0, 0, 23⟩ z = some h :=
    decodeForm_decode_bcd (hahour ▸ hz.and_0x3F hh) (by omega) (by decide)
  cases n <;>
    simp only [Params.decodeTime, Params.decThen, Params.dec, Params.decodeForm, alarmRegs, hsec, hmin, hhour]

/-- With the simulator answering, a setter of an alarm answers true (R109, R122). -/
theorem State.setAlarm_fst_of_ok {s : State} {c : SimRtc} (hsim : s.inp.sim = some c)
    (hok : c.script.headD true = true) (n : AlarmNo) (t : Time) : (s.setAlarm n t).1 = true := by
  rw [(s.setAlarm_spec n t).1, State.ackAnswer, State.maskAnswer, hsim]
  simp only [hok, if_true, Option.isSome_some, Bool.and_self]

/-- With the simulator answering, a read of three registers shows their bytes (R109). -/
theorem State.readAnswer_of_ok {s : State} {c : SimRtc} (hsim : s.inp.sim = some c)
    (hok : c.script.headD true = true) (rs : Regs3) :
    s.readAnswer rs =
      some ⟨Memory.read c.simReg (s.cfg.rtcAddr rs.r1).toNat, Memory.read c.simReg (s.cfg.rtcAddr rs.r2).toNat,
        Memory.read c.simReg (s.cfg.rtcAddr rs.r3).toNat⟩ := by
  rw [State.readAnswer, hsim]
  exact if_pos hok

end Sys2Proof.Machine
end

section
/-! PROOFS. The reference simulator: what each command stores, and an alarm set and read back. -/

namespace Sys2Proof.Proofs

open Sys2Proof.Machine

/-- Settles O26: reads and probes store nothing, and a write's bytes are those of its items. -/
theorem simRtcStores : Obligations.SimRtcStores := by
  intro s c hsim hwf
  refine ⟨fun i hi => ?_, fun reg => ⟨_, rfl, s.busRead1_sim c hsim reg⟩,
    fun reg val => ⟨_, _, rfl, s.busWrite_sim c hsim _, fun a => ?_⟩, fun h m sec hh hm hs => ?_,
    fun day month year hv => ?_⟩
  · have hgetter {α : Type} (rs : Regs3) (v : Option α → Value) (f : Fetched α) :=
      (congrArg Inputs.sim ((s.busRead3 rs).2.answerFetched_inp v f)).trans (s.busRead3_sim c hsim rs)
    simp only [List.mem_cons, List.not_mem_nil, or_false] at hi
    obtain rfl | rfl | rfl | rfl | rfl := hi
    · exact ⟨_, rfl, hgetter _ _ _⟩
    · exact ⟨_, rfl, hgetter _ _ _⟩
    · exact ⟨_, rfl, hgetter _ _ _⟩
    · exact ⟨_, rfl, hgetter _ _ _⟩
    · exact ⟨_, rfl, s.busProbe_sim c hsim⟩
  · cases c.script.headD true with
    | false => simp
    | true => simpa [Params.atAddrs] using storeItems_read1 c.simReg hwf (s.cfg.rtcAddr reg) val a
  · have hexec : exec (.rtcSettime h m sec) s =
        .next (State.answerBool (s.setTime (timeOf h.toNat m.toNat sec.toNat))) := by
      rw [← State.setterCommand_some, ← setterTime_valid h m sec ⟨hh, hm, hs⟩]
      rfl
    refine ⟨_, _, hexec, s.busWrite_sim c hsim _, fun a => ?_⟩
    rw [timeItems_timeOf s.cfg ⟨hh, hm, hs⟩]
    cases c.script.headD true with
    | false => rfl
    | true => exact storeItems_read3 c.simReg hwf _ _ _ _ _ _ a
  · have hexec : exec (.rtcSetdate day month year) s =
        .next (State.answerBool (s.setDate ⟨day.toNat, month.toNat, year.toNat⟩)) := by
      rw [← State.setterCommand_some, ← setterDate_valid hv]
      rfl
    refine ⟨_, _, hexec, s.busWrite_sim c hsim _, fun a => ?_⟩
    cases c.script.headD true with
    | false => rfl
    | true => exact storeItems_read3 c.simReg hwf _ _ _ _ _ _ a

/-- Settles O27: one bit of one byte, or an alarm's three bytes and then its mask bit. -/
theorem simRtcBitStores : Obligations.SimRtcBitStores := by
  intro s c hsim hwf
  refine ⟨fun reg bit v => ⟨_, _, rfl, s.busRmw_sim c hsim _ bit v, fun a => ?_⟩, fun n h m sec hh hm hs => ?_⟩
  · cases c.script.headD true with
    | false => simp
    | true =>
      simp only [if_true, true_and]
      rw [Memory.read_write _ hwf]
      split
      · next ha => rw [ha]
      · rfl
  · have hv := And.intro hh (And.intro hm hs)
    obtain ⟨mem, hmem, hread⟩ := State.setAlarm_stores hsim hwf n hv
    exact ⟨_, mem, exec_setAlarm_valid s n hv, hmem, hread⟩

/-- Settles O28: the getter reads the bytes the setter stored, and its masks take off the mask bit wherever it was
set. -/
theorem setAlarmThenGetAlarm : Obligations.SetAlarmThenGetAlarm := by
  intro s c n h m sec hsim hwf hscript hlegal hasec hamin hahour hbit hh hm hs
  have hv := And.intro hh (And.intro hm hs)
  have hok : c.script.headD true = true := by rw [hscript]; rfl
  obtain ⟨mem, hmem, hread⟩ := State.setAlarm_stores hsim hwf n hv
  let tm := timeOf h.toNat m.toNat sec.toNat
  let t := State.answerBool (s.setAlarm n tm)
  have hcfg : t.cfg = s.cfg := (s.setAlarm_spec n tm).2.cells.1
  have hbyte {r : RtcReg} {v : Nat}
      (hr : alarmStored s.cfg n h.toNat m.toNat sec.toNat (Memory.read c.simReg) (s.cfg.rtcAddr r).toNat = bcd v) :
      AlarmByte (Memory.read mem (s.cfg.rtcAddr r).toNat) v := by
    rw [hread, hok, if_neg (by decide), hr, hbit]
    split
    · exact .inr rfl
    · exact .inl rfl
  obtain ⟨h1, h2, h3⟩ := alarmStored_at_regs hlegal n h.toNat m.toNat sec.toNat (Memory.read c.simReg)
  have hgot : (t.getAlarm n).1 = .got tm := by
    have htail : c.script.tail = [] := by rw [hscript]; rfl
    rw [htail] at hmem
    rw [(t.getAlarm_spec n).1, State.readAnswer_of_ok (s := t) hmem rfl, hcfg]
    exact decodeTime_alarm hasec hamin hahour n (hbyte h1) (hbyte h2) (hbyte h3) hv
  obtain ⟨eh, em, es⟩ := timeOf_val h.toNat m.toNat sec.toNat hv
  refine ⟨t, _, tm, exec_setAlarm_valid s n hv, exec_getAlarm t n, ?_, ?_, eh, em, es⟩
  · exact congrArg (HostOutcome.result ∘ Value.bool) (State.setAlarm_fst_of_ok hsim hok n tm)
  · rw [hgot]
    rfl

end Sys2Proof.Proofs
end
